-- ==== Sys2Proof/Word.lean ====
section
/-! DEFINITION. The one word type of KBS: every register, frame byte and key pattern is one unsigned byte
(00_scope.md R10, 20_memory.md R71). -/

namespace Sys2Proof

/-- A byte: "Every byte is 8 bits and unsigned" (00_scope.md R10). -/
abbrev Byte := BitVec 8

end Sys2Proof
end

