-- ==== Sys2Proof/Config.lean ====
section
/-! DEFINITION. The parameters of KBS as data (00_scope.md R4). Their constraints and their default values are
definitions of Sys2Proof/Machine/Params.lean. -/

namespace Sys2Proof

/-- The wire dialect (00_scope.md R4, R9). Only PowerSeries has rules; Classic is refused. -/
inductive Dialect where
  | powerSeries
  | classic
  deriving DecidableEq, Repr

/-- The 25 keys of the alphabet, one per rule R301 to R325 of 44_keys.md. A letter's two cases are one key. -/
inductive Key where
  | digit0 | digit1 | digit2 | digit3 | digit4 | digit5 | digit6 | digit7 | digit8 | digit9
  | star | hash
  | fire | aux | panic
  | stay | away | night | chime | reset | exit
  | out1 | out2 | out3 | out4
  deriving DecidableEq, Repr

/-- The pattern half of the OPEN parameter `KEYMAP` (44_keys.md R300): one byte per key. The other half, which
characters are keys and which keys are alarm keys, is fixed by 44_keys.md (`Machine.keyOfCode`,
`Machine.keyIsAlarm`). One field per key, so the domain and the equality of a letter's two cases hold by
construction. DEDUCED (log 3), safe. -/
structure KeyPatterns where
  digit0 : Byte
  digit1 : Byte
  digit2 : Byte
  digit3 : Byte
  digit4 : Byte
  digit5 : Byte
  digit6 : Byte
  digit7 : Byte
  digit8 : Byte
  digit9 : Byte
  star : Byte
  hash : Byte
  fire : Byte
  aux : Byte
  panic : Byte
  stay : Byte
  away : Byte
  night : Byte
  chime : Byte
  reset : Byte
  exit : Byte
  out1 : Byte
  out2 : Byte
  out3 : Byte
  out4 : Byte
  deriving DecidableEq, Repr

/-- Where a key of one partition is written: the command byte of the frame and the start bit (42_writer.md R203). -/
structure KeySlot where
  cmd : Byte
  start : Nat
  deriving DecidableEq, Repr

/-- The parameters of 00_scope.md R4, "A model takes each as a field of its configuration". `slots` is `SLOT`,
partition 1 first. `MAX_BITS` and `N_FILT` are derived (`Config.maxBits`, `Config.nFilt`). -/
structure Config where
  tickNs : Nat
  tSample : Nat
  tEof : Nat
  tDisc : Nat
  dialect : Dialect
  readSize : Nat
  queueCap : Nat
  minFrameBits : Nat
  periodicCmds : List Byte
  maxPartitions : Nat
  keyPatterns : KeyPatterns
  slots : List KeySlot
  alarmStart : Nat
  deriving DecidableEq, Repr

end Sys2Proof
end

