-- ==== Sys2Proof/Machine/Alphabet.lean ====
section
/-! DEFINITION. The key alphabet of 44_keys.md R300: which character codes are keys, which keys are alarm keys, and
the pattern a configuration gives each. -/

namespace Sys2Proof.Machine

/-- The domain of `KEYMAP` (44_keys.md R300, column "code(s)"); `none` for `/` (R330) and every other code (R331). -/
def keyOfCode (code : Byte) : Option Key :=
  match code.toNat with
  | 0x30 => some .digit0
  | 0x31 => some .digit1
  | 0x32 => some .digit2
  | 0x33 => some .digit3
  | 0x34 => some .digit4
  | 0x35 => some .digit5
  | 0x36 => some .digit6
  | 0x37 => some .digit7
  | 0x38 => some .digit8
  | 0x39 => some .digit9
  | 0x2A => some .star
  | 0x23 => some .hash
  | 0x46 => some .fire
  | 0x66 => some .fire
  | 0x41 => some .aux
  | 0x61 => some .aux
  | 0x50 => some .panic
  | 0x70 => some .panic
  | 0x53 => some .stay
  | 0x73 => some .stay
  | 0x57 => some .away
  | 0x77 => some .away
  | 0x4E => some .night
  | 0x6E => some .night
  | 0x43 => some .chime
  | 0x63 => some .chime
  | 0x52 => some .reset
  | 0x72 => some .reset
  | 0x58 => some .exit
  | 0x78 => some .exit
  | 0x5B => some .out1
  | 0x5D => some .out2
  | 0x7B => some .out3
  | 0x7D => some .out4
  | _ => none

/-- The alarm flag of `KEYMAP`: fire, aux and panic (44_keys.md R300, column "alarm"; 42_writer.md R204). -/
def keyIsAlarm (k : Key) : Bool :=
  match k with
  | .fire => true
  | .aux => true
  | .panic => true
  | _ => false

/-- The pattern of `KEYMAP` for a key (44_keys.md R300). -/
def keyPattern (p : KeyPatterns) (k : Key) : Byte :=
  match k with
  | .digit0 => p.digit0
  | .digit1 => p.digit1
  | .digit2 => p.digit2
  | .digit3 => p.digit3
  | .digit4 => p.digit4
  | .digit5 => p.digit5
  | .digit6 => p.digit6
  | .digit7 => p.digit7
  | .digit8 => p.digit8
  | .digit9 => p.digit9
  | .star => p.star
  | .hash => p.hash
  | .fire => p.fire
  | .aux => p.aux
  | .panic => p.panic
  | .stay => p.stay
  | .away => p.away
  | .night => p.night
  | .chime => p.chime
  | .reset => p.reset
  | .exit => p.exit
  | .out1 => p.out1
  | .out2 => p.out2
  | .out3 => p.out3
  | .out4 => p.out4

/-- `KEYMAP` whole: a character code to (pattern, alarm flag) (44_keys.md R300). -/
def keymap (c : Config) (code : Byte) : Option (Byte × Bool) :=
  (keyOfCode code).map fun k => (keyPattern c.keyPatterns k, keyIsAlarm k)

end Sys2Proof.Machine
end

