-- ==== Sys2Proof/Machine/Params.lean ====
section
/-! DEFINITION. The derived parameters, the constraints of 00_scope.md R4 and R5, and the default instance that
every vector of the spec uses. -/

namespace Sys2Proof

/-- `MAX_BITS` = 8·`READ_SIZE` − 7 (00_scope.md R4). -/
def Config.maxBits (c : Config) : Nat := 8 * c.readSize - 7

/-- `N_FILT`, the length of `PERIODIC_CMDS` (00_scope.md R4). -/
def Config.nFilt (c : Config) : Nat := c.periodicCmds.length

/-- "9 ≤ start ≤ `MAX_BITS` − 8", the constraint on one entry of `SLOT` (00_scope.md R4). -/
def Config.slotOk (c : Config) (e : KeySlot) : Bool :=
  decide (9 ≤ e.start) && decide (e.start + 8 ≤ c.maxBits)

/-- The constraints column of 00_scope.md R4, normative by R5; the dialect is a check of its own (R9). -/
def Config.constraintsOk (c : Config) : Bool :=
  decide (0 < c.tickNs) && decide (1 ≤ c.tSample) && decide (c.tSample ≤ c.tEof) && decide (c.tEof < c.tDisc)
    && decide (3 ≤ c.readSize) && decide (c.readSize ≤ 16)
    && decide (1 ≤ c.queueCap) && decide (c.queueCap ≤ 255)
    && decide (1 ≤ c.minFrameBits) && decide (c.minFrameBits ≤ c.maxBits)
    && decide c.periodicCmds.Nodup
    && decide (1 ≤ c.maxPartitions) && decide (c.maxPartitions ≤ 8)
    && decide (c.slots.length = c.maxPartitions) && c.slots.all c.slotOk
    && decide (c.alarmStart + 8 ≤ c.maxBits)

/-- A configuration the spec gives a meaning: the constraints hold (00_scope.md R5) and the dialect is PowerSeries
(R9). -/
def Config.wf (c : Config) : Bool := c.constraintsOk && decide (c.dialect = .powerSeries)

/-- The default instance of `KEYMAP`'s patterns (44_keys.md R300 to R325). PRESUMED (log 2), unsafe: the spec marks
every value "from general knowledge, not in source"; no statement rests on one. -/
def KeyPatterns.default : KeyPatterns where
  digit0 := 0x00#8
  digit1 := 0x05#8
  digit2 := 0x0A#8
  digit3 := 0x0F#8
  digit4 := 0x11#8
  digit5 := 0x16#8
  digit6 := 0x1B#8
  digit7 := 0x1C#8
  digit8 := 0x22#8
  digit9 := 0x27#8
  star := 0x28#8
  hash := 0x2D#8
  fire := 0xBB#8
  aux := 0xDD#8
  panic := 0xEE#8
  stay := 0xAF#8
  away := 0xB1#8
  night := 0xB6#8
  chime := 0xBB#8
  reset := 0xDA#8
  exit := 0xE1#8
  out1 := 0xD5#8
  out2 := 0xDA#8
  out3 := 0x70#8
  out4 := 0xEC#8

/-- The default instance of `SLOT` (42_writer.md R203), partition 1 first. PRESUMED (log 2), unsafe: as
`KeyPatterns.default`. -/
def defaultSlots : List KeySlot :=
  [⟨0x05#8, 9⟩, ⟨0x05#8, 17⟩, ⟨0x05#8, 57⟩, ⟨0x05#8, 65⟩,
   ⟨0x1B#8, 9⟩, ⟨0x1B#8, 17⟩, ⟨0x1B#8, 57⟩, ⟨0x1B#8, 65⟩]

/-- The default value of every parameter (00_scope.md R4, column "default"). -/
def Config.default : Config where
  tickNs := 1000
  tSample := 250
  tEof := 1000
  tDisc := 3000000
  dialect := .powerSeries
  readSize := 16
  queueCap := 10
  minFrameBits := 8
  periodicCmds := [0x05#8, 0x1B#8]
  maxPartitions := 8
  keyPatterns := KeyPatterns.default
  slots := defaultSlots
  alarmStart := 1

end Sys2Proof
end

