-- ==== Sys2Proof/Machine/State.lean ====
section
/-! DEFINITION. The state of KBS. `Device` is exactly the table of 10_state.md R20; `State` adds what is not the
block's own: its parameters, the inputs still to come, and what the last step showed on its outputs. -/

namespace Sys2Proof.Machine

/-- The conditions of 60_exceptions.md R260. `raise` marks one in `Output.raised` and has no effect of its own. -/
inductive Condition where
  /-- X1, with `p_bits` at the boundary (R261); raised by EOF. -/
  | shortFrame (bits : Nat)
  /-- X3 (R263); raised by ENQUEUE. X2 (R262) is raised by nothing: `Device.checksumFail` is its property. -/
  | queueOverflow
  /-- X4 (R264); raised by DISC. -/
  | busDisconnect
  /-- X5 (R265); raised by WRITE_KEY. -/
  | invalidWrite
  /-- X6 (R266); raised by EOF's `synced` = 0 arm (log 7). -/
  | startupSuppressed
  deriving DecidableEq, Repr

/-- One FIFO slot: `q_data[i]`, `q_bits[i]`, `q_bytes[i]` (10_state.md R33). -/
structure FrameSlot where
  data : List Byte
  bits : Nat
  bytes : Nat
  deriving DecidableEq, Repr

/-- One filter slot: `f_valid[k]`, `f_data[k]` (10_state.md R32). -/
structure FilterSlot where
  valid : Bool
  data : List Byte
  deriving DecidableEq, Repr

/-- "The state of KBS is exactly the elements of this table" (10_state.md R20). An array of the table is a list
(its length is an invariant, `Shape`); a counter is a natural number, since "All arithmetic is on unsigned
integers" and none of them wraps (00_scope.md R10, 41_fifo_checksum.md R191), and its width is an invariant
(`Widths`; log 8). -/
structure Device where
  /-- `clk_seen`, `clk_q`: the edge detector (R27). -/
  clkSeen : Bool
  clkQ : Bool
  /-- `samp_armed`, `samp_cnt`: the sample timer (R28). -/
  sampArmed : Bool
  sampCnt : Nat
  /-- `high_cnt` (R29). -/
  highCnt : Nat
  /-- `idle_cnt` (R30). -/
  idleCnt : Nat
  /-- `synced` (R31). -/
  synced : Bool
  /-- `p_data`, `p_bits`: the panel stream being assembled (R21, R24). -/
  pData : List Byte
  pBits : Nat
  /-- `m_data`, `m_bits`, `m_detect`: the module stream being assembled (R22, R25, R26). -/
  mData : List Byte
  mBits : Nat
  mDetect : Bool
  /-- `f_valid`, `f_data`: the filter memory (R32). -/
  filt : List FilterSlot
  /-- `q_data`, `q_bits`, `q_bytes`: the FIFO slots (R33). -/
  slots : List FrameSlot
  /-- `q_head`, `q_tail`, `q_len` (R34). -/
  qHead : Nat
  qTail : Nat
  qLen : Nat
  /-- `overflow` (R35). -/
  overflow : Bool
  /-- `connected`, `conn_changed` (R36). -/
  connected : Bool
  connChanged : Bool
  /-- `ms_data`, `ms_bits`, `ms_cmd`, `ms_valid`: the module snapshot (R37). -/
  msData : List Byte
  msBits : Nat
  msCmd : Byte
  msValid : Bool
  /-- `wr_pending` and the held request (R38). -/
  wrPending : Bool
  wrPattern : Byte
  wrStart : Nat
  wrCmd : Byte
  wrAny : Bool
  wrAlarm : Bool
  /-- `wr_second`, `wr_active`, `wr_last`: the writer's progress (R39). -/
  wrSecond : Bool
  wrActive : Bool
  wrLast : Bool
  /-- `drive_low`, the output port `kb_drive_low_o` (R40, R57). -/
  driveLow : Bool
  /-- `vkp_en`, `mod_en`: CTRL bits 0 and 1 (R41). -/
  vkpEn : Bool
  modEn : Bool
  /-- `WKEY`, `WPART` (R42). -/
  wkey : Byte
  wpart : Byte
  deriving DecidableEq, Repr

/-- An input of one step: a period with `rst` = 1 (70_reset_and_hazards.md R280), a tick, or a host access
(20_memory.md R76). `d` is the level the rest of the bus presents (10_state.md R58). -/
inductive Input where
  | rst
  | tick (c d : Bool)
  | host (we : Bool) (addr : BitVec 6) (wdata : Byte)
  deriving DecidableEq, Repr

/-- What the step just done showed: the value on `h_rdata`, if it was a read (10_state.md R57), and the conditions
it raised, in order (60_exceptions.md R260). The model's own; DESIGN CHOICE (log 6), safe. -/
structure Output where
  rdata : Option Byte
  raised : List Condition
  deriving DecidableEq, Repr

/-- The machine: the parameters (no step changes them), the block's state, the inputs not yet taken (oldest first)
and the outputs of the last step. DESIGN CHOICE (log 1, log 4), see the log. -/
structure State where
  cfg : Config
  dev : Device
  inputs : List Input
  out : Output
  deriving DecidableEq, Repr

/-- KBS never faults: "There is no behaviour in KBS whose treatment is `fault` or `stuck`"
(93_implementation_defined.md Part 1). No constructor, so nobody raises one. -/
inductive Fault where
  deriving DecidableEq, Repr

/-- Why a step is refused. -/
inductive Refusal where
  /-- An operation with no meaning yet, by its mnemonic; raised by `exec` only. Safe. No arm answers it. -/
  | notModelled (mnemonic : String)
  /-- The configuration breaks a constraint: "a model refuses it" (00_scope.md R5); raised by `step`. Safe. -/
  | badConfiguration
  /-- `DIALECT` = Classic: "refused: no rule of this spec gives it a meaning" (00_scope.md R9); raised by `step`.
  Safe. -/
  | classicDialect
  deriving DecidableEq, Repr

/-- `READ_SIZE` bytes of 0x00. -/
def zeroBytes (c : Config) : List Byte := List.replicate c.readSize 0#8

/-- The reset value of every element: "every element is 0 except `WPART`, which is 0x01" (70_reset_and_hazards.md
R280, 10_state.md R20). -/
def Device.reset (c : Config) : Device where
  clkSeen := false
  clkQ := false
  sampArmed := false
  sampCnt := 0
  highCnt := 0
  idleCnt := 0
  synced := false
  pData := zeroBytes c
  pBits := 0
  mData := zeroBytes c
  mBits := 0
  mDetect := false
  filt := List.replicate c.nFilt ⟨false, zeroBytes c⟩
  slots := List.replicate c.queueCap ⟨zeroBytes c, 0, 0⟩
  qHead := 0
  qTail := 0
  qLen := 0
  overflow := false
  connected := false
  connChanged := false
  msData := zeroBytes c
  msBits := 0
  msCmd := 0x00#8
  msValid := false
  wrPending := false
  wrPattern := 0x00#8
  wrStart := 0
  wrCmd := 0x00#8
  wrAny := false
  wrAlarm := false
  wrSecond := false
  wrActive := false
  wrLast := false
  driveLow := false
  vkpEn := false
  modEn := false
  wkey := 0x00#8
  wpart := 0x01#8

/-- Nothing shown and nothing raised. -/
def Output.none : Output := ⟨Option.none, []⟩

/-- The machine right after reset with the parameters `c`, no input pending. -/
def State.resetWith (c : Config) : State := ⟨c, Device.reset c, [], Output.none⟩

/-- The machine right after reset with the spec's default parameters (00_scope.md R4). The choice of this one
instance is a DESIGN CHOICE (log 1), unsafe for a claim about this state alone. -/
def State.reset : State := State.resetWith Config.default

end Sys2Proof.Machine
end

