-- ==== Sys2Proof/Machine/Operands.lean ====
section
/-! DEFINITION. How operands are formed: the derived functions of 00_scope.md R12, the sampled line, the fields of
the front frame, and the request a key and a partition translate to. -/

namespace Sys2Proof.Machine

/-- `ByteIndex(n)`: the byte that receives wire bit n (00_scope.md R12). -/
def byteIndex (n : Nat) : Nat := if n < 8 then 0 else if n = 8 then 1 else 2 + (n - 9) / 8

/-- `ByteCount(n)`: the complete byte slots after n bits; the same function (00_scope.md R12). -/
def byteCount (n : Nat) : Nat := byteIndex n

/-- `ShiftIn(byte, b) = ((byte << 1) | b)[7:0]` (00_scope.md R12). -/
def shiftIn (byte : Byte) (b : Bool) : Byte := (byte <<< 1) ||| (BitVec.ofBool b).setWidth 8

/-- Byte i of an array; bytes outside it read 0x00, which only the host windows reach ("else 0x00", 10_state.md
R55, R56). -/
def byteAt (data : List Byte) (i : Nat) : Byte := data.getD i 0#8

/-- The byte array with wire bit n shifted in (30_encoding.md R102; 40_sampler.md R150). -/
def appendBit (data : List Byte) (n : Nat) (b : Bool) : List Byte :=
  data.set (byteIndex n) (shiftIn (byteAt data (byteIndex n)) b)

/-- Pad model: `line = d AND NOT drive_low` (10_state.md R58). -/
def Device.line (v : Device) (d : Bool) : Bool := d && !v.driveLow

/-- `commandByte` during capture is `p_data[0]` (10_state.md R23). -/
def Device.commandByte (v : Device) : Byte := byteAt v.pData 0

/-- A slot that is never read: what an index outside the FIFO would give (log 20). -/
def emptySlot : FrameSlot := ⟨[], 0, 0⟩

/-- FIFO slot i (10_state.md R33). -/
def Device.slotAt (v : Device) (i : Nat) : FrameSlot := v.slots.getD i emptySlot

/-- The front frame, slot `q_tail`, when the FIFO is not empty (41_fifo_checksum.md R185). -/
def Device.front (v : Device) : Option FrameSlot := if v.qLen = 0 then none else some (v.slotAt v.qTail)

/-- FRONT_BITS (10_state.md R48). -/
def Device.frontBits (v : Device) : Byte :=
  match v.front with
  | some f => BitVec.ofNat 8 f.bits
  | none => 0x00#8

/-- FRONT_BYTES (10_state.md R49). -/
def Device.frontBytes (v : Device) : Byte :=
  match v.front with
  | some f => BitVec.ofNat 8 f.bytes
  | none => 0x00#8

/-- FRONT_DATA[i] (10_state.md R55). -/
def Device.frontData (c : Config) (v : Device) (i : Nat) : Byte :=
  match v.front with
  | some f => if i < c.readSize then byteAt f.data i else 0x00#8
  | none => 0x00#8

/-- MS_DATA[i] (10_state.md R56). -/
def Device.snapshotData (c : Config) (v : Device) (i : Nat) : Byte :=
  if i < c.readSize then byteAt v.msData i else 0x00#8

/-- "1 ≤ `WPART` ≤ `MAX_PARTITIONS`", condition (e) of 42_writer.md R201. -/
def Device.partitionOk (c : Config) (v : Device) : Bool :=
  decide (1 ≤ v.wpart.toNat) && decide (v.wpart.toNat ≤ c.maxPartitions)

/-- `SLOT(p)` for a partition number p from 1 (42_writer.md R203). The value outside the table is never used under
a configuration that meets 00_scope.md R5 (log 16). -/
def slotOf (c : Config) (p : Nat) : KeySlot := c.slots.getD (p - 1) ⟨0x00#8, 0⟩

/-- Filter slot k (10_state.md R32); outside the table, never reached, a slot that remembers nothing (log 20). -/
def Device.filterAt (v : Device) (k : Nat) : FilterSlot := v.filt.getD k ⟨false, []⟩

/-- The filter slot of a command byte: the k with `PERIODIC_CMDS[k]` equal to it (40_sampler.md R160). -/
def filterIndex (c : Config) (cmd : Byte) : Option Nat := c.periodicCmds.findIdx? (fun p => p == cmd)

end Sys2Proof.Machine
end

