-- ==== Sys2Proof/Machine/Flags.lean ====
section
/-! DEFINITION. The checksum verdict, the STATUS and CTRL bytes, and the flags the host clears. -/

namespace Sys2Proof.Machine

/-- The sum of `bytes[0]` and `bytes[2..t-1]` mod 256, in an accumulator that wraps (41_fifo_checksum.md R188).
Byte 1, the stop bit, is never added. -/
def checksum (data : List Byte) (t : Nat) : Byte :=
  ((data.take t).drop 2).foldl (· + ·) (byteAt data 0)

/-- `CkOk(bytes, byteCount)` (41_fifo_checksum.md R188). -/
def ckOk (data : List Byte) (count : Nat) : Bool :=
  if count < 3 then false else decide (checksum data (count - 1) = byteAt data (count - 1))

/-- FRONT_CKOK: the verdict of the front frame, 0 when the FIFO is empty (41_fifo_checksum.md R190). -/
def Device.frontCkOk (v : Device) : Bool :=
  match v.front with
  | some f => ckOk f.data f.bytes
  | none => false

/-- X2 ChecksumFail, "a property of the front frame" (60_exceptions.md R260, R262). -/
def Device.checksumFail (v : Device) : Bool := v.front.isSome && !v.frontCkOk

/-- A byte from its bits, bit 7 first. -/
def byteOfBits (b7 b6 b5 b4 b3 b2 b1 b0 : Bool) : Byte :=
  BitVec.ofBool b7 ++ BitVec.ofBool b6 ++ BitVec.ofBool b5 ++ BitVec.ofBool b4 ++
    BitVec.ofBool b3 ++ BitVec.ofBool b2 ++ BitVec.ofBool b1 ++ BitVec.ofBool b0

/-- STATUS (10_state.md R43; 43_host_ops.md R222). -/
def Device.statusByte (v : Device) : Byte :=
  byteOfBits v.msValid v.synced v.frontCkOk (!v.wrPending) v.connChanged v.connected v.overflow (decide (0 < v.qLen))

/-- CTRL (10_state.md R45; 43_host_ops.md R224). -/
def Device.ctrlByte (v : Device) : Byte :=
  byteOfBits false false false false false false v.modEn v.vkpEn

/-- `FlagClear(v)`: bit 1 clears `overflow`, bit 3 `conn_changed`, bit 7 `ms_valid` (43_host_ops.md R223). -/
def Device.flagClear (v : Device) (m : Byte) : Device :=
  { v with
    overflow := v.overflow && !m.getLsbD 1
    connChanged := v.connChanged && !m.getLsbD 3
    msValid := v.msValid && !m.getLsbD 7 }

end Sys2Proof.Machine
end

