-- ==== Sys2Proof/Machine/Ops.lean ====
section
/-! DEFINITION. The shared operations of both agents, one per named piece of pseudocode of 40_sampler.md,
41_fifo_checksum.md, 42_writer.md and 43_host_ops.md. KBS takes no exception (60_exceptions.md R271, R272): the one
shared operation in that place is `State.raise`, which marks a condition in the trace and changes nothing else. -/

namespace Sys2Proof.Machine

/-! ### The two ways an operation acts on the machine -/

/-- Replace the block's state. -/
def State.withDev (s : State) (v : Device) : State := { s with dev := v }

/-- `raise C`: "has no effect of its own" (60_exceptions.md R260); it never aborts the step (00_scope.md R11). -/
def State.raise (s : State) (e : Condition) : State :=
  { s with out := { s.out with raised := s.out.raised ++ [e] } }

/-- The value of a read appears on `h_rdata` (43_host_ops.md R220). -/
def State.answer (s : State) (b : Byte) : State := { s with out := { s.out with rdata := some b } }

/-! ### Clearings -/

/-- ClearAssembly (40_sampler.md R163). -/
def Device.clearAssembly (c : Config) (v : Device) : Device :=
  { v with pData := zeroBytes c, mData := zeroBytes c, pBits := 0, mBits := 0, mDetect := false }

/-- The pending write abandoned and the line released (42_writer.md R211, R212). -/
def Device.abandonWrite (v : Device) : Device :=
  { v with wrPending := false, wrActive := false, wrLast := false, wrSecond := false, driveLow := false }

/-! ### The writer -/

/-- FrameMatch: `wr_any = 1 or (p_bits >= 8 and p_data[0] = wr_cmd)` (42_writer.md R205). -/
def Device.frameMatch (v : Device) : Bool :=
  v.wrAny || (decide (8 ≤ v.pBits) && decide (v.commandByte = v.wrCmd))

/-- Present pattern bit 7 − k: low for a 0, released for a 1; k = 7 marks the last (42_writer.md R206). -/
def Device.presentBit (v : Device) (k : Nat) : Device :=
  { v with driveLow := !v.wrPattern.getLsbD (7 - k), wrLast := v.wrLast || decide (k = 7) }

/-- WriterEvaluate, run by every EDGE_FALL (42_writer.md R206). `k` is computed "only when the result is in 0..7"
(41_fifo_checksum.md R191); outside it nothing is presented. DEDUCED (log 17) for `n < wr_start`, safe: no
reachable state has it. -/
def Device.writerEvaluate (v : Device) : Device :=
  if !v.wrPending || !v.vkpEn || !v.synced then v
  else if !v.wrActive then
    if v.frameMatch && decide (v.pBits = v.wrStart) then Device.presentBit { v with wrActive := true } 0 else v
  else if v.wrStart ≤ v.pBits ∧ v.pBits ≤ v.wrStart + 7 then v.presentBit (v.pBits - v.wrStart)
  else v

/-- WriteComplete (42_writer.md R208, R209). -/
def Device.writeComplete (v : Device) : Device :=
  if v.wrAlarm && !v.wrSecond then { v with wrLast := false, wrActive := false, wrSecond := true }
  else { v with wrLast := false, wrActive := false, wrPending := false, wrSecond := false }

/-! ### Edges -/

/-- EdgeCommon (40_sampler.md R142). -/
def Device.edgeCommon (v : Device) : Device :=
  { v with
    idleCnt := 0
    connected := true
    connChanged := v.connChanged || !v.connected
    sampArmed := true
    sampCnt := 0 }

/-- The rising edge's own lines: `high_cnt <- 0`, release of the line (40_sampler.md R143, 42_writer.md R207). -/
def Device.risingRelease (v : Device) : Device := { v with highCnt := 0, driveLow := false }

/-- EDGE_RISE (40_sampler.md R143). -/
def Device.edgeRise (v : Device) : Device :=
  let v1 := v.edgeCommon.risingRelease
  if v1.wrLast then v1.writeComplete else v1

/-- EDGE_FALL (40_sampler.md R144). -/
def Device.edgeFall (v : Device) : Device := v.edgeCommon.writerEvaluate

/-- TICK_FIRST (40_sampler.md R140). -/
def Device.tickFirst (v : Device) : Device := { v with clkSeen := true }

/-- `clk_q <- c`, the last line of `Tick` (40_sampler.md R141). -/
def Device.latchClock (v : Device) (c : Bool) : Device := { v with clkQ := c }

/-! ### Sampling -/

/-- SampleTimer fires in this tick: the count reaches `T_SAMPLE` (40_sampler.md R146). -/
def Device.sampleDue (c : Config) (v : Device) : Bool := v.sampArmed && decide (v.sampCnt + 1 = c.tSample)

/-- SampleTimer's writes: the count advances, and the timer disarms when it fires (40_sampler.md R146). -/
def Device.sampleTimer (c : Config) (v : Device) : Device :=
  if v.sampArmed then { v with sampCnt := v.sampCnt + 1, sampArmed := decide (v.sampCnt + 1 ≠ c.tSample) } else v

/-- SAMPLE_P (40_sampler.md R150; saturation R152). -/
def Device.sampleP (c : Config) (v : Device) (line : Bool) : Device :=
  if v.synced && decide (v.pBits < c.maxBits) then
    { v with pData := appendBit v.pData v.pBits line, pBits := v.pBits + 1 }
  else v

/-- SAMPLE_M's buffer half (40_sampler.md R154; saturation R152). -/
def Device.moduleBit (c : Config) (v : Device) (line : Bool) : Device :=
  if v.mBits < c.maxBits then { v with mData := appendBit v.mData v.mBits line, mBits := v.mBits + 1 } else v

/-- SAMPLE_M (40_sampler.md R154); `m_detect` is set by a low sample even when the buffer is full. -/
def Device.sampleM (c : Config) (v : Device) (line : Bool) : Device :=
  if v.synced && v.modEn then
    let v1 := v.moduleBit c line
    { v1 with mDetect := v1.mDetect || !line }
  else v

/-! ### The frame boundary -/

/-- RedundancyFilter's answer: this frame is skipped (40_sampler.md R160). -/
def Device.filterSkips (c : Config) (v : Device) : Bool :=
  match filterIndex c v.commandByte with
  | some k => (v.filterAt k).valid && decide ((v.filterAt k).data = v.pData)
  | none => false

/-- RedundancyFilter's memory: a periodic frame that is not skipped is remembered (40_sampler.md R160). -/
def Device.filterUpdate (c : Config) (v : Device) : Device :=
  match filterIndex c v.commandByte with
  | some k => if v.filterSkips c then v else { v with filt := v.filt.set k ⟨true, v.pData⟩ }
  | none => v

/-- ENQUEUE with room: slot `q_head` written, head advanced, length up (41_fifo_checksum.md R182). -/
def Device.pushFrame (c : Config) (v : Device) (data : List Byte) (n : Nat) : Device :=
  { v with
    slots := v.slots.set v.qHead ⟨data, n, byteCount n⟩
    qHead := (v.qHead + 1) % c.queueCap
    qLen := v.qLen + 1 }

/-- ENQUEUE (41_fifo_checksum.md R182); X3 when full. -/
def State.enqueue (s : State) (data : List Byte) (n : Nat) : State :=
  if s.dev.qLen = s.cfg.queueCap then
    (s.withDev { s.dev with overflow := true }).raise .queueOverflow
  else s.withDev (s.dev.pushFrame s.cfg data n)

/-- ModuleSnapshot (40_sampler.md R162). -/
def Device.moduleSnapshot (v : Device) : Device :=
  if v.modEn && v.mDetect then
    { v with msData := v.mData, msBits := v.mBits, msCmd := v.commandByte, msValid := true }
  else v

/-- EOF's third arm: filter, enqueue unless skipped, snapshot (40_sampler.md R158). -/
def State.deliverFrame (s : State) : State :=
  let s1 := s.withDev (s.dev.filterUpdate s.cfg)
  let s2 := if s.dev.filterSkips s.cfg then s1 else s1.enqueue s1.dev.pData s1.dev.pBits
  s2.withDev s2.dev.moduleSnapshot

/-- EOF's last lines: ClearAssembly, `wr_active <- 0`, `wr_last <- 0` (40_sampler.md R158). -/
def Device.endFrame (c : Config) (v : Device) : Device :=
  { v.clearAssembly c with wrActive := false, wrLast := false }

/-- EOF, the end-of-frame event (40_sampler.md R158). X6 is marked in the `synced` = 0 arm (log 7). -/
def State.eof (s : State) : State :=
  let s1 :=
    if !s.dev.synced then (s.withDev { s.dev with synced := true }).raise .startupSuppressed
    else if s.dev.pBits < s.cfg.minFrameBits then s.raise (.shortFrame s.dev.pBits)
    else s.deliverFrame
  s1.withDev (s1.dev.endFrame s1.cfg)

/-- HighTimer (40_sampler.md R148). -/
def State.highTimer (s : State) : State :=
  if s.dev.highCnt ≤ s.cfg.tEof then
    let s1 := s.withDev { s.dev with highCnt := s.dev.highCnt + 1 }
    if s1.dev.highCnt = s1.cfg.tEof + 1 then s1.eof else s1
  else s

/-! ### Disconnect -/

/-- DISC's mark and flags: `connected` actually changes (40_sampler.md R164). -/
def State.dropConnection (s : State) : State :=
  if s.dev.connected then
    (s.withDev { s.dev with connected := false, connChanged := true }).raise .busDisconnect
  else s

/-- DISC's clearings: the write is abandoned; with the clock low the partial frame and `synced` go too
(40_sampler.md R164). -/
def Device.silence (c : Config) (v : Device) : Device :=
  let v1 := v.abandonWrite
  if v1.clkQ then v1 else { v1.clearAssembly c with synced := false }

/-- DISC, the bus-silence event (40_sampler.md R164). -/
def State.disc (s : State) : State :=
  let s1 := s.dropConnection
  s1.withDev (s1.dev.silence s1.cfg)

/-- IdleTimer (40_sampler.md R149). -/
def State.idleTimer (s : State) : State :=
  if s.dev.idleCnt ≤ s.cfg.tDisc then
    let s1 := s.withDev { s.dev with idleCnt := s.dev.idleCnt + 1 }
    if s1.dev.idleCnt = s1.cfg.tDisc + 1 then s1.disc else s1
  else s

/-! ### Holding ticks -/

/-- SampleTimer and, when it fires, SAMPLE_M (40_sampler.md R145). -/
def Device.holdSampleM (c : Config) (v : Device) (line : Bool) : Device :=
  if v.sampleDue c then (v.sampleTimer c).sampleM c line else v.sampleTimer c

/-- SampleTimer and, when it fires, SAMPLE_P (40_sampler.md R147). -/
def Device.holdSampleP (c : Config) (v : Device) (line : Bool) : Device :=
  if v.sampleDue c then (v.sampleTimer c).sampleP c line else v.sampleTimer c

/-- TICK_HOLD_LOW (40_sampler.md R145). -/
def State.tickHoldLow (s : State) (line : Bool) : State :=
  (s.withDev (s.dev.holdSampleM s.cfg line)).idleTimer

/-- TICK_HOLD_HIGH: sample, then EOF, then DISC (40_sampler.md R147; 60_exceptions.md R268). -/
def State.tickHoldHigh (s : State) (line : Bool) : State :=
  (s.withDev (s.dev.holdSampleP s.cfg line)).highTimer.idleTimer

/-- `clk_q <- c`, the last line of `Tick` (40_sampler.md R141). -/
def State.latchClock (s : State) (c : Bool) : State := s.withDev (s.dev.latchClock c)

/-! ### Host commands and writes -/

/-- POP (41_fifo_checksum.md R184). -/
def Device.pop (c : Config) (v : Device) : Device :=
  if 0 < v.qLen then { v with qTail := (v.qTail + 1) % c.queueCap, qLen := v.qLen - 1 } else v

/-- FILTCLR: every `f_valid[k] <- 0`, `f_data` left as it is (41_fifo_checksum.md R186). -/
def Device.filtclr (v : Device) : Device :=
  { v with filt := v.filt.map fun e => { e with valid := false } }

/-- `CtrlWrite(v)` (43_host_ops.md R225): clearing VKP_EN abandons the pending write (42_writer.md R212). -/
def Device.ctrlWrite (v : Device) (b : Byte) : Device :=
  let v1 := if v.vkpEn && !b.getLsbD 0 then v.abandonWrite else v
  { v1 with vkpEn := b.getLsbD 0, modEn := b.getLsbD 1 }

/-- The acceptance conditions (a), (b), (c) and (e) of 42_writer.md R201; (d), that the character is a key, is
tested beside them in `State.writeKey`. -/
def Device.acceptsKey (c : Config) (v : Device) : Bool :=
  v.vkpEn && v.connected && !v.wrPending && v.partitionOk c

/-- What an accepted WRITE_KEY loads for an alarm key (42_writer.md R202, R204). -/
def Device.loadAlarmKey (c : Config) (v : Device) (pattern : Byte) : Device :=
  { v with
    wrPattern := pattern, wrAlarm := true, wrAny := true, wrStart := c.alarmStart, wrCmd := 0x00#8
    wrSecond := false, wrActive := false, wrLast := false, wrPending := true }

/-- What an accepted WRITE_KEY loads for any other key: the slot of the partition in WPART (42_writer.md R202). -/
def Device.loadSlotKey (c : Config) (v : Device) (pattern : Byte) : Device :=
  { v with
    wrPattern := pattern, wrAlarm := false, wrAny := false
    wrStart := (slotOf c v.wpart.toNat).start, wrCmd := (slotOf c v.wpart.toNat).cmd
    wrSecond := false, wrActive := false, wrLast := false, wrPending := true }

/-- The load of an accepted WRITE_KEY (42_writer.md R202). -/
def Device.loadKey (c : Config) (v : Device) (k : Key) : Device :=
  if keyIsAlarm k then v.loadAlarmKey c (keyPattern c.keyPatterns k)
  else v.loadSlotKey c (keyPattern c.keyPatterns k)

/-- A rejected request: "no state changes, no flag is set" (42_writer.md R201); X5 is marked. -/
def State.rejectKey (s : State) : State := s.raise .invalidWrite

/-- WRITE_KEY with the character of key `k` (42_writer.md R202). -/
def State.requestKey (s : State) (k : Key) : State :=
  if s.dev.acceptsKey s.cfg then s.withDev (s.dev.loadKey s.cfg k) else s.rejectKey

/-- WRITE_KEY: the character is that in WKEY (42_writer.md R202); a code that is no key is rejected (R201 (d)). -/
def State.writeKey (s : State) : State :=
  match keyOfCode s.dev.wkey with
  | some k => s.requestKey k
  | none => s.rejectKey

/-- `Command(v)` (43_host_ops.md R230). -/
def State.command (s : State) (v : Byte) : State :=
  match v.toNat with
  | 0x00 => s
  | 0x01 => s.withDev (s.dev.pop s.cfg)
  | 0x02 => s.writeKey
  | 0x03 => s.withDev s.dev.filtclr
  | _ => s

end Sys2Proof.Machine
end

