-- ==== Sys2Proof/Machine/Command.lean ====
section
/-! DEFINITION. The CMD family: what the byte written to CMD does (43_host_ops.md R230). "Each command completes
within its step." -/

namespace Sys2Proof.Machine

/-- NOP (43_host_ops.md R240). -/
def execNop (s : State) : Host.Outcome State Fault Refusal := .next s

/-- POP (41_fifo_checksum.md R184). -/
def execPop (s : State) : Host.Outcome State Fault Refusal := .next (s.withDev (s.dev.pop s.cfg))

/-- WRITE_KEY (42_writer.md R202). -/
def execWriteKey (s : State) : Host.Outcome State Fault Refusal := .next s.writeKey

/-- FILTCLR (41_fifo_checksum.md R186). -/
def execFiltclr (s : State) : Host.Outcome State Fault Refusal := .next (s.withDev s.dev.filtclr)

/-- A reserved command code: "no state changes, nothing is reported" (43_host_ops.md R241). -/
def execCmdReserved (_code : Byte) (s : State) : Host.Outcome State Fault Refusal := .next s

end Sys2Proof.Machine
end

