-- ==== Sys2Proof/Machine/Event.lean ====
section
/-! DEFINITION. The EVENT family: the rows without an encoding. They fire inside ticks, which call the same shared
operations; the meaning of the row is the event alone, on the state as it stands. DESIGN CHOICE (log 9), safe:
`step` decodes no event. -/

namespace Sys2Proof.Machine

/-- SAMPLE_P (40_sampler.md R150, R152). -/
def execSampleP (line : Bool) (s : State) : Host.Outcome State Fault Refusal :=
  .next (s.withDev (s.dev.sampleP s.cfg line))

/-- SAMPLE_M (40_sampler.md R154, R152). -/
def execSampleM (line : Bool) (s : State) : Host.Outcome State Fault Refusal :=
  .next (s.withDev (s.dev.sampleM s.cfg line))

/-- EOF (40_sampler.md R158). -/
def execEof (s : State) : Host.Outcome State Fault Refusal :=
  .next s.eof

/-- DISC (40_sampler.md R164). -/
def execDisc (s : State) : Host.Outcome State Fault Refusal :=
  .next s.disc

/-- ENQUEUE of the assembled bytes and bit count (41_fifo_checksum.md R182). -/
def execEnqueue (s : State) : Host.Outcome State Fault Refusal :=
  .next (s.enqueue s.dev.pData s.dev.pBits)

end Sys2Proof.Machine
end

