-- ==== Sys2Proof/Machine/HostRead.lean ====
section
/-! DEFINITION. The HOST family, reads: "No read of any address changes any state" (43_host_ops.md R220), so a read
only puts its value on `h_rdata`. -/

namespace Sys2Proof.Machine

/-- A byte-wide view of a count: "counts shown in 8-bit registers are zero-extended" (30_encoding.md R114). -/
def countByte (n : Nat) : Byte := BitVec.ofNat 8 n

/-- The value `HR(addr)` returns (43_host_ops.md R220), whole: what the host sees at each of the 64 addresses. -/
def State.readRegister (s : State) (addr : BitVec 6) : Byte :=
  match addr.toNat with
  | 0x00 => s.dev.statusByte
  | 0x02 => s.dev.ctrlByte
  | 0x04 => countByte s.dev.qLen
  | 0x05 => s.dev.frontBits
  | 0x06 => s.dev.frontBytes
  | 0x07 => s.dev.wkey
  | 0x08 => s.dev.wpart
  | 0x09 => countByte s.dev.msBits
  | 0x0A => countByte (byteCount s.dev.msBits)
  | 0x0B => s.dev.msCmd
  | a =>
    if 0x10 ≤ a ∧ a < 0x20 then s.dev.frontData s.cfg (a - 0x10)
    else if 0x20 ≤ a ∧ a < 0x30 then s.dev.snapshotData s.cfg (a - 0x20)
    else 0x00#8

/-- HR STATUS (43_host_ops.md R222). -/
def execHrStatus (s : State) : Host.Outcome State Fault Refusal := .next (s.answer s.dev.statusByte)

/-- HR CTRL (43_host_ops.md R224). -/
def execHrCtrl (s : State) : Host.Outcome State Fault Refusal := .next (s.answer s.dev.ctrlByte)

/-- HR QLEN (43_host_ops.md R226). -/
def execHrQlen (s : State) : Host.Outcome State Fault Refusal := .next (s.answer (countByte s.dev.qLen))

/-- HR FRONT_BITS (43_host_ops.md R227; 10_state.md R48). -/
def execHrFrontBits (s : State) : Host.Outcome State Fault Refusal := .next (s.answer s.dev.frontBits)

/-- HR FRONT_BYTES (43_host_ops.md R227; 10_state.md R49). -/
def execHrFrontBytes (s : State) : Host.Outcome State Fault Refusal := .next (s.answer s.dev.frontBytes)

/-- HR WKEY (43_host_ops.md R228). -/
def execHrWkey (s : State) : Host.Outcome State Fault Refusal := .next (s.answer s.dev.wkey)

/-- HR WPART (43_host_ops.md R229). -/
def execHrWpart (s : State) : Host.Outcome State Fault Refusal := .next (s.answer s.dev.wpart)

/-- HR MS_BITS (43_host_ops.md R231; 10_state.md R52). -/
def execHrMsBits (s : State) : Host.Outcome State Fault Refusal := .next (s.answer (countByte s.dev.msBits))

/-- HR MS_BYTES: `ByteCount(ms_bits)` (43_host_ops.md R231; 10_state.md R53). -/
def execHrMsBytes (s : State) : Host.Outcome State Fault Refusal :=
  .next (s.answer (countByte (byteCount s.dev.msBits)))

/-- HR MS_CMD (43_host_ops.md R231; 10_state.md R54). -/
def execHrMsCmd (s : State) : Host.Outcome State Fault Refusal := .next (s.answer s.dev.msCmd)

/-- HR FRONT_DATA+i (43_host_ops.md R227; 10_state.md R55). -/
def execHrFrontData (i : BitVec 4) (s : State) : Host.Outcome State Fault Refusal :=
  .next (s.answer (s.dev.frontData s.cfg i.toNat))

/-- HR MS_DATA+i (43_host_ops.md R231; 10_state.md R56). -/
def execHrMsData (i : BitVec 4) (s : State) : Host.Outcome State Fault Refusal :=
  .next (s.answer (s.dev.snapshotData s.cfg i.toNat))

/-- HR FLAGCLR, a write-only address: reads 0x00 (20_memory.md R84). -/
def execHrFlagclrZero (s : State) : Host.Outcome State Fault Refusal := .next (s.answer 0x00#8)

/-- HR CMD, a write-only address: reads 0x00 (20_memory.md R84). -/
def execHrCmdZero (s : State) : Host.Outcome State Fault Refusal := .next (s.answer 0x00#8)

end Sys2Proof.Machine
end

