-- ==== Sys2Proof/Machine/HostWrite.lean ====
section
/-! DEFINITION. The HOST family, writes and reserved addresses (43_host_ops.md R221; 20_memory.md R84). -/

namespace Sys2Proof.Machine

/-- HW FLAGCLR (43_host_ops.md R223). -/
def execHwFlagclr (v : Byte) (s : State) : Host.Outcome State Fault Refusal := .next (s.withDev (s.dev.flagClear v))

/-- HW CTRL (43_host_ops.md R225). -/
def execHwCtrl (v : Byte) (s : State) : Host.Outcome State Fault Refusal := .next (s.withDev (s.dev.ctrlWrite v))

/-- HW CMD (43_host_ops.md R230). -/
def execHwCmd (v : Byte) (s : State) : Host.Outcome State Fault Refusal := .next (s.command v)

/-- HW WKEY: no check at the write (43_host_ops.md R228). -/
def execHwWkey (v : Byte) (s : State) : Host.Outcome State Fault Refusal := .next (s.withDev { s.dev with wkey := v })

/-- HW WPART: no check at the write (43_host_ops.md R229). -/
def execHwWpart (v : Byte) (s : State) : Host.Outcome State Fault Refusal := .next (s.withDev { s.dev with wpart := v })

/-- A write that is ignored: "a write to an RO register is ignored" (20_memory.md R84). -/
def State.ignoreWrite (s : State) (_v : Byte) : State := s

/-- A reserved address: "a read returns 0x00, a write is ignored" (20_memory.md R84). -/
def State.reservedAccess (s : State) (we : Bool) (v : Byte) : State := if we then s.ignoreWrite v else s.answer 0x00#8

/-- Addresses 0x0C to 0x0F (20_memory.md R84). -/
def execHostReserved0C0F (we : Bool) (_lo : BitVec 2) (v : Byte) (s : State) : Host.Outcome State Fault Refusal :=
  .next (s.reservedAccess we v)

/-- Addresses 0x30 to 0x3F (20_memory.md R84). -/
def execHostReserved303F (we : Bool) (_lo : BitVec 4) (v : Byte) (s : State) : Host.Outcome State Fault Refusal :=
  .next (s.reservedAccess we v)

/-- HW STATUS (20_memory.md R84). -/
def execHwStatusIgnored (v : Byte) (s : State) : Host.Outcome State Fault Refusal := .next (s.ignoreWrite v)

/-- HW QLEN (20_memory.md R84). -/
def execHwQlenIgnored (v : Byte) (s : State) : Host.Outcome State Fault Refusal := .next (s.ignoreWrite v)

/-- HW FRONT_BITS (20_memory.md R84). -/
def execHwFrontBitsIgnored (v : Byte) (s : State) : Host.Outcome State Fault Refusal := .next (s.ignoreWrite v)

/-- HW FRONT_BYTES (20_memory.md R84). -/
def execHwFrontBytesIgnored (v : Byte) (s : State) : Host.Outcome State Fault Refusal := .next (s.ignoreWrite v)

/-- HW MS_BITS (20_memory.md R84). -/
def execHwMsBitsIgnored (v : Byte) (s : State) : Host.Outcome State Fault Refusal := .next (s.ignoreWrite v)

/-- HW MS_BYTES (20_memory.md R84). -/
def execHwMsBytesIgnored (v : Byte) (s : State) : Host.Outcome State Fault Refusal := .next (s.ignoreWrite v)

/-- HW MS_CMD (20_memory.md R84). -/
def execHwMsCmdIgnored (v : Byte) (s : State) : Host.Outcome State Fault Refusal := .next (s.ignoreWrite v)

/-- HW FRONT_DATA+i (20_memory.md R84). -/
def execHwFrontDataIgnored (_i : BitVec 4) (v : Byte) (s : State) : Host.Outcome State Fault Refusal :=
  .next (s.ignoreWrite v)

/-- HW MS_DATA+i (20_memory.md R84). -/
def execHwMsDataIgnored (_i : BitVec 4) (v : Byte) (s : State) : Host.Outcome State Fault Refusal :=
  .next (s.ignoreWrite v)

end Sys2Proof.Machine
end

