-- ==== Sys2Proof/Machine/Keys.lean ====
section
/-! DEFINITION. The KEY family, "the fourth instruction format" (44_keys.md): the character in WKEY that WRITE_KEY
looks up. The meaning of a key's row is WRITE_KEY with that character: the acceptance conditions of 42_writer.md
R201 and the load of R202. It writes neither WKEY nor WPART. DEDUCED (log 11), safe. -/

namespace Sys2Proof.Machine

/-- Key `0` (44_keys.md R301). -/
def execKey0 (s : State) : Host.Outcome State Fault Refusal := .next (s.requestKey .digit0)

/-- Key `1` (44_keys.md R302). -/
def execKey1 (s : State) : Host.Outcome State Fault Refusal := .next (s.requestKey .digit1)

/-- Key `2` (44_keys.md R303). -/
def execKey2 (s : State) : Host.Outcome State Fault Refusal := .next (s.requestKey .digit2)

/-- Key `3` (44_keys.md R304). -/
def execKey3 (s : State) : Host.Outcome State Fault Refusal := .next (s.requestKey .digit3)

/-- Key `4` (44_keys.md R305). -/
def execKey4 (s : State) : Host.Outcome State Fault Refusal := .next (s.requestKey .digit4)

/-- Key `5` (44_keys.md R306). -/
def execKey5 (s : State) : Host.Outcome State Fault Refusal := .next (s.requestKey .digit5)

/-- Key `6` (44_keys.md R307). -/
def execKey6 (s : State) : Host.Outcome State Fault Refusal := .next (s.requestKey .digit6)

/-- Key `7` (44_keys.md R308). -/
def execKey7 (s : State) : Host.Outcome State Fault Refusal := .next (s.requestKey .digit7)

/-- Key `8` (44_keys.md R309). -/
def execKey8 (s : State) : Host.Outcome State Fault Refusal := .next (s.requestKey .digit8)

/-- Key `9` (44_keys.md R310). -/
def execKey9 (s : State) : Host.Outcome State Fault Refusal := .next (s.requestKey .digit9)

/-- Key `*` (44_keys.md R311). -/
def execKeyStar (s : State) : Host.Outcome State Fault Refusal := .next (s.requestKey .star)

/-- Key `#` (44_keys.md R312). -/
def execKeyHash (s : State) : Host.Outcome State Fault Refusal := .next (s.requestKey .hash)

/-- Key `F` `f`, an alarm key (44_keys.md R313). -/
def execKeyFire (_lower : Bool) (s : State) : Host.Outcome State Fault Refusal := .next (s.requestKey .fire)

/-- Key `A` `a`, an alarm key (44_keys.md R314). -/
def execKeyAux (_lower : Bool) (s : State) : Host.Outcome State Fault Refusal := .next (s.requestKey .aux)

/-- Key `P` `p`, an alarm key (44_keys.md R315). -/
def execKeyPanic (_lower : Bool) (s : State) : Host.Outcome State Fault Refusal := .next (s.requestKey .panic)

/-- Key `S` `s` (44_keys.md R316). -/
def execKeyStay (_lower : Bool) (s : State) : Host.Outcome State Fault Refusal := .next (s.requestKey .stay)

/-- Key `W` `w` (44_keys.md R317). -/
def execKeyAway (_lower : Bool) (s : State) : Host.Outcome State Fault Refusal := .next (s.requestKey .away)

/-- Key `N` `n` (44_keys.md R318). -/
def execKeyNight (_lower : Bool) (s : State) : Host.Outcome State Fault Refusal := .next (s.requestKey .night)

/-- Key `C` `c` (44_keys.md R319). -/
def execKeyChime (_lower : Bool) (s : State) : Host.Outcome State Fault Refusal := .next (s.requestKey .chime)

/-- Key `R` `r` (44_keys.md R320). -/
def execKeyReset (_lower : Bool) (s : State) : Host.Outcome State Fault Refusal := .next (s.requestKey .reset)

/-- Key `X` `x` (44_keys.md R321). -/
def execKeyExit (_lower : Bool) (s : State) : Host.Outcome State Fault Refusal := .next (s.requestKey .exit)

/-- Key `[` (44_keys.md R322). -/
def execKeyOut1 (s : State) : Host.Outcome State Fault Refusal := .next (s.requestKey .out1)

/-- Key `]` (44_keys.md R323). -/
def execKeyOut2 (s : State) : Host.Outcome State Fault Refusal := .next (s.requestKey .out2)

/-- Key command output 3 (44_keys.md R324). -/
def execKeyOut3 (s : State) : Host.Outcome State Fault Refusal := .next (s.requestKey .out3)

/-- Key command output 4 (44_keys.md R325). -/
def execKeyOut4 (s : State) : Host.Outcome State Fault Refusal := .next (s.requestKey .out4)

/-- `/`: "rejected like an unknown character" (44_keys.md R330). -/
def execKeySlashRejected (s : State) : Host.Outcome State Fault Refusal := .next s.rejectKey

/-- A code that names no key: "WRITE_KEY is rejected: no state changes, no flag" (44_keys.md R331). -/
def execKeyUnknownRejected (_code : Byte) (s : State) : Host.Outcome State Fault Refusal := .next s.rejectKey

end Sys2Proof.Machine
end

