-- ==== Sys2Proof/Machine/Tick.lean ====
section
/-! DEFINITION. The TICK family: the five operations a tick selects (40_sampler.md R140 to R147). Each is the whole
`Tick(c, d)` of R141 with that operation selected: the line as the pad shows it before the tick, the operation, then
`clk_q <- c`. The clock level `c` is the pattern's. -/

namespace Sys2Proof.Machine

/-- TICK_FIRST (40_sampler.md R140): no counter moves, no edge is seen. -/
def execTickFirst (_clkQ c _d : Bool) (s : State) : Host.Outcome State Fault Refusal :=
  .next ((s.withDev s.dev.tickFirst).latchClock c)

/-- EDGE_RISE (40_sampler.md R143); the data level is ignored. -/
def execEdgeRise (_d : Bool) (s : State) : Host.Outcome State Fault Refusal :=
  .next ((s.withDev s.dev.edgeRise).latchClock true)

/-- EDGE_FALL (40_sampler.md R144); the data level is ignored. -/
def execEdgeFall (_d : Bool) (s : State) : Host.Outcome State Fault Refusal :=
  .next ((s.withDev s.dev.edgeFall).latchClock false)

/-- TICK_HOLD_LOW (40_sampler.md R145). -/
def execTickHoldLow (d : Bool) (s : State) : Host.Outcome State Fault Refusal :=
  .next ((s.tickHoldLow (s.dev.line d)).latchClock false)

/-- TICK_HOLD_HIGH (40_sampler.md R147). -/
def execTickHoldHigh (d : Bool) (s : State) : Host.Outcome State Fault Refusal :=
  .next ((s.tickHoldHigh (s.dev.line d)).latchClock true)

end Sys2Proof.Machine
end

