-- ==== Sys2Proof/Syntax.lean ====
section
/-! DEFINITION. The operations of KBS as syntax: one constructor per row of spec/opcode_table.json, in its order.
An operand the row's encoding leaves open (`x`, `i`, the data byte) is an argument, so that nothing of an encoding
is dropped. -/

namespace Sys2Proof

inductive Instr where
  -- TICK (30_encoding.md R110): `d` is the data level the rest of the bus presents in that tick.
  /-- TICK_FIRST, pattern `0xx`: the two open bits are `clk_q` and `c` (40_sampler.md R140). -/
  | tickFirst (clkQ c d : Bool)
  | edgeRise (d : Bool)
  | edgeFall (d : Bool)
  | tickHoldLow (d : Bool)
  | tickHoldHigh (d : Bool)
  -- EVENT: no encoding; they fire inside ticks. `line` is the sampled level (10_state.md R58).
  | sampleP (line : Bool)
  | sampleM (line : Bool)
  | eof
  | disc
  | enqueue
  -- HOST (30_encoding.md R111): `i` the window index, `v` the data byte `h_wdata`.
  | hrStatus
  | hwFlagclr (v : Byte)
  | hrCtrl
  | hwCtrl (v : Byte)
  | hwCmd (v : Byte)
  | hrQlen
  | hrFrontBits
  | hrFrontBytes
  | hrWkey
  | hwWkey (v : Byte)
  | hrWpart
  | hwWpart (v : Byte)
  | hrMsBits
  | hrMsBytes
  | hrMsCmd
  | hrFrontData (i : BitVec 4)
  | hrMsData (i : BitVec 4)
  /-- Reserved addresses 0x0C to 0x0F, read (`we` = false) or written (20_memory.md R84). -/
  | hostReserved0C0F (we : Bool) (lo : BitVec 2) (v : Byte)
  /-- Reserved addresses 0x30 to 0x3F, read (`we` = false) or written (20_memory.md R84). -/
  | hostReserved303F (we : Bool) (lo : BitVec 4) (v : Byte)
  | hwStatusIgnored (v : Byte)
  | hrFlagclrZero
  | hrCmdZero
  | hwQlenIgnored (v : Byte)
  | hwFrontBitsIgnored (v : Byte)
  | hwFrontBytesIgnored (v : Byte)
  | hwMsBitsIgnored (v : Byte)
  | hwMsBytesIgnored (v : Byte)
  | hwMsCmdIgnored (v : Byte)
  | hwFrontDataIgnored (i : BitVec 4) (v : Byte)
  | hwMsDataIgnored (i : BitVec 4) (v : Byte)
  -- CMD (30_encoding.md R112): the byte written to CMD.
  | nop
  | pop
  | writeKey
  | filtclr
  /-- A command code outside 0x00..0x03 (43_host_ops.md R241). -/
  | cmdReserved (code : Byte)
  -- KEY (30_encoding.md R113): the character in WKEY that WRITE_KEY looks up; `lower` is the letter-case bit.
  | key0
  | key1
  | key2
  | key3
  | key4
  | key5
  | key6
  | key7
  | key8
  | key9
  | keyStar
  | keyHash
  | keyFire (lower : Bool)
  | keyAux (lower : Bool)
  | keyPanic (lower : Bool)
  | keyStay (lower : Bool)
  | keyAway (lower : Bool)
  | keyNight (lower : Bool)
  | keyChime (lower : Bool)
  | keyReset (lower : Bool)
  | keyExit (lower : Bool)
  | keyOut1
  | keyOut2
  | keyOut3
  | keyOut4
  | keySlashRejected
  /-- A character code that no other KEY row names (44_keys.md R331). -/
  | keyUnknownRejected (code : Byte)
  deriving DecidableEq, Repr

end Sys2Proof
end

