-- ==== Sys2Proof/Machine/Dispatch.lean ====
section
/-! DEFINITION. One arm per operation. -/

namespace Sys2Proof.Machine

def exec (i : Instr) (s : State) : Host.Outcome State Fault Refusal :=
  match i with
  | .tickFirst clkQ c d => Sys2Proof.Machine.execTickFirst clkQ c d s
  | .edgeRise d => Sys2Proof.Machine.execEdgeRise d s
  | .edgeFall d => Sys2Proof.Machine.execEdgeFall d s
  | .tickHoldLow d => Sys2Proof.Machine.execTickHoldLow d s
  | .tickHoldHigh d => Sys2Proof.Machine.execTickHoldHigh d s
  | .sampleP line => Sys2Proof.Machine.execSampleP line s
  | .sampleM line => Sys2Proof.Machine.execSampleM line s
  | .eof => Sys2Proof.Machine.execEof s
  | .disc => Sys2Proof.Machine.execDisc s
  | .enqueue => Sys2Proof.Machine.execEnqueue s
  | .hrStatus => Sys2Proof.Machine.execHrStatus s
  | .hwFlagclr v => Sys2Proof.Machine.execHwFlagclr v s
  | .hrCtrl => Sys2Proof.Machine.execHrCtrl s
  | .hwCtrl v => Sys2Proof.Machine.execHwCtrl v s
  | .hwCmd v => Sys2Proof.Machine.execHwCmd v s
  | .hrQlen => Sys2Proof.Machine.execHrQlen s
  | .hrFrontBits => Sys2Proof.Machine.execHrFrontBits s
  | .hrFrontBytes => Sys2Proof.Machine.execHrFrontBytes s
  | .hrWkey => Sys2Proof.Machine.execHrWkey s
  | .hwWkey v => Sys2Proof.Machine.execHwWkey v s
  | .hrWpart => Sys2Proof.Machine.execHrWpart s
  | .hwWpart v => Sys2Proof.Machine.execHwWpart v s
  | .hrMsBits => Sys2Proof.Machine.execHrMsBits s
  | .hrMsBytes => Sys2Proof.Machine.execHrMsBytes s
  | .hrMsCmd => Sys2Proof.Machine.execHrMsCmd s
  | .hrFrontData k => Sys2Proof.Machine.execHrFrontData k s
  | .hrMsData k => Sys2Proof.Machine.execHrMsData k s
  | .hostReserved0C0F we lo v => Sys2Proof.Machine.execHostReserved0C0F we lo v s
  | .hostReserved303F we lo v => Sys2Proof.Machine.execHostReserved303F we lo v s
  | .hwStatusIgnored v => Sys2Proof.Machine.execHwStatusIgnored v s
  | .hrFlagclrZero => Sys2Proof.Machine.execHrFlagclrZero s
  | .hrCmdZero => Sys2Proof.Machine.execHrCmdZero s
  | .hwQlenIgnored v => Sys2Proof.Machine.execHwQlenIgnored v s
  | .hwFrontBitsIgnored v => Sys2Proof.Machine.execHwFrontBitsIgnored v s
  | .hwFrontBytesIgnored v => Sys2Proof.Machine.execHwFrontBytesIgnored v s
  | .hwMsBitsIgnored v => Sys2Proof.Machine.execHwMsBitsIgnored v s
  | .hwMsBytesIgnored v => Sys2Proof.Machine.execHwMsBytesIgnored v s
  | .hwMsCmdIgnored v => Sys2Proof.Machine.execHwMsCmdIgnored v s
  | .hwFrontDataIgnored k v => Sys2Proof.Machine.execHwFrontDataIgnored k v s
  | .hwMsDataIgnored k v => Sys2Proof.Machine.execHwMsDataIgnored k v s
  | .nop => Sys2Proof.Machine.execNop s
  | .pop => Sys2Proof.Machine.execPop s
  | .writeKey => Sys2Proof.Machine.execWriteKey s
  | .filtclr => Sys2Proof.Machine.execFiltclr s
  | .cmdReserved code => Sys2Proof.Machine.execCmdReserved code s
  | .key0 => Sys2Proof.Machine.execKey0 s
  | .key1 => Sys2Proof.Machine.execKey1 s
  | .key2 => Sys2Proof.Machine.execKey2 s
  | .key3 => Sys2Proof.Machine.execKey3 s
  | .key4 => Sys2Proof.Machine.execKey4 s
  | .key5 => Sys2Proof.Machine.execKey5 s
  | .key6 => Sys2Proof.Machine.execKey6 s
  | .key7 => Sys2Proof.Machine.execKey7 s
  | .key8 => Sys2Proof.Machine.execKey8 s
  | .key9 => Sys2Proof.Machine.execKey9 s
  | .keyStar => Sys2Proof.Machine.execKeyStar s
  | .keyHash => Sys2Proof.Machine.execKeyHash s
  | .keyFire lower => Sys2Proof.Machine.execKeyFire lower s
  | .keyAux lower => Sys2Proof.Machine.execKeyAux lower s
  | .keyPanic lower => Sys2Proof.Machine.execKeyPanic lower s
  | .keyStay lower => Sys2Proof.Machine.execKeyStay lower s
  | .keyAway lower => Sys2Proof.Machine.execKeyAway lower s
  | .keyNight lower => Sys2Proof.Machine.execKeyNight lower s
  | .keyChime lower => Sys2Proof.Machine.execKeyChime lower s
  | .keyReset lower => Sys2Proof.Machine.execKeyReset lower s
  | .keyExit lower => Sys2Proof.Machine.execKeyExit lower s
  | .keyOut1 => Sys2Proof.Machine.execKeyOut1 s
  | .keyOut2 => Sys2Proof.Machine.execKeyOut2 s
  | .keyOut3 => Sys2Proof.Machine.execKeyOut3 s
  | .keyOut4 => Sys2Proof.Machine.execKeyOut4 s
  | .keySlashRejected => Sys2Proof.Machine.execKeySlashRejected s
  | .keyUnknownRejected code => Sys2Proof.Machine.execKeyUnknownRejected code s

end Sys2Proof.Machine
end

