-- ==== Sys2Proof/WellFormed.lean ====
section
/-! DEFINITION. Which terms of `Instr` the opcode table's rows admit. Every operand with a field of its own width
is admissible at every value; two rows are "every code not named before", and their operand is checked. -/

namespace Sys2Proof

/-- CMD_RESERVED: "every code 0x04..0xFF" (43_host_ops.md R241). -/
def Instr.reservedCodeOk (code : Byte) : Bool := decide (4 ≤ code.toNat)

/-- KEY_UNKNOWN_REJECTED: "Any code not named by rules R301 to R325" (44_keys.md R331), nor by R330. -/
def Instr.unknownKeyOk (code : Byte) : Bool := (Machine.keyOfCode code).isNone && decide (code ≠ 0x2F#8)

/-- Well formed: an operand of a row that is defined by exclusion is not a code of another row. -/
def Instr.wf (i : Instr) : Bool :=
  match i with
  | .cmdReserved code => Instr.reservedCodeOk code
  | .keyUnknownRejected code => Instr.unknownKeyOk code
  | .tickFirst _ _ _ => true
  | .edgeRise _ => true
  | .edgeFall _ => true
  | .tickHoldLow _ => true
  | .tickHoldHigh _ => true
  | .sampleP _ => true
  | .sampleM _ => true
  | .eof => true
  | .disc => true
  | .enqueue => true
  | .hrStatus => true
  | .hwFlagclr _ => true
  | .hrCtrl => true
  | .hwCtrl _ => true
  | .hwCmd _ => true
  | .hrQlen => true
  | .hrFrontBits => true
  | .hrFrontBytes => true
  | .hrWkey => true
  | .hwWkey _ => true
  | .hrWpart => true
  | .hwWpart _ => true
  | .hrMsBits => true
  | .hrMsBytes => true
  | .hrMsCmd => true
  | .hrFrontData _ => true
  | .hrMsData _ => true
  | .hostReserved0C0F _ _ _ => true
  | .hostReserved303F _ _ _ => true
  | .hwStatusIgnored _ => true
  | .hrFlagclrZero => true
  | .hrCmdZero => true
  | .hwQlenIgnored _ => true
  | .hwFrontBitsIgnored _ => true
  | .hwFrontBytesIgnored _ => true
  | .hwMsBitsIgnored _ => true
  | .hwMsBytesIgnored _ => true
  | .hwMsCmdIgnored _ => true
  | .hwFrontDataIgnored _ _ => true
  | .hwMsDataIgnored _ _ => true
  | .nop => true
  | .pop => true
  | .writeKey => true
  | .filtclr => true
  | .key0 => true
  | .key1 => true
  | .key2 => true
  | .key3 => true
  | .key4 => true
  | .key5 => true
  | .key6 => true
  | .key7 => true
  | .key8 => true
  | .key9 => true
  | .keyStar => true
  | .keyHash => true
  | .keyFire _ => true
  | .keyAux _ => true
  | .keyPanic _ => true
  | .keyStay _ => true
  | .keyAway _ => true
  | .keyNight _ => true
  | .keyChime _ => true
  | .keyReset _ => true
  | .keyExit _ => true
  | .keyOut1 => true
  | .keyOut2 => true
  | .keyOut3 => true
  | .keyOut4 => true
  | .keySlashRejected => true

/-- The five EVENT rows have no encoding (spec/opcode_table.json; 30_encoding.md R110: "they have rules ... but no
pattern"). -/
def Instr.isEvent (i : Instr) : Bool :=
  match i with
  | .sampleP _ => true
  | .sampleM _ => true
  | .eof => true
  | .disc => true
  | .enqueue => true
  | _ => false

end Sys2Proof
end

