-- ==== Sys2Proof/Decode.lean ====
section
/-! DEFINITION. The selection of an operation by its bits (30_encoding.md sections 3 to 6), the same over bytes, and
the encoder written from the same tables. The five formats of the opcode table are five separate spaces of words:
a word says nothing without its format. -/

namespace Sys2Proof

/-- The formats of spec/opcode_table.json. -/
inductive Format where
  | tick
  | event
  | host
  | cmd
  | key
  deriving DecidableEq, Repr

/-- Why bytes are no operation. -/
inductive DecodeError where
  /-- An EVENT has no encoding; no bytes stand for one. -/
  | eventHasNoEncoding
  /-- Fewer bytes than the format has. -/
  | truncated
  /-- A TICK pattern byte with a bit above bit 2. -/
  | tickPatternTooWide
  /-- A data-level byte other than 0 and 1. -/
  | dataLevelTooWide
  /-- A HOST select byte with bit 7 set. -/
  | hostSelectTooWide
  deriving DecidableEq, Repr

/-- The TICK select `{clk_seen, clk_q, c}` (30_encoding.md R110), with the tick's data level. -/
def decodeTick (p : BitVec 3) (d : Bool) : Instr :=
  match p.getLsbD 2, p.getLsbD 1, p.getLsbD 0 with
  | false, q, c => .tickFirst q c d
  | true, false, true => .edgeRise d
  | true, true, false => .edgeFall d
  | true, false, false => .tickHoldLow d
  | true, true, true => .tickHoldHigh d

/-- A read, select `0aaaaaa` (30_encoding.md R111, 20_memory.md R72). -/
def decodeHostRead (addr : BitVec 6) (v : Byte) : Instr :=
  match addr.toNat with
  | 0x00 => .hrStatus
  | 0x01 => .hrFlagclrZero
  | 0x02 => .hrCtrl
  | 0x03 => .hrCmdZero
  | 0x04 => .hrQlen
  | 0x05 => .hrFrontBits
  | 0x06 => .hrFrontBytes
  | 0x07 => .hrWkey
  | 0x08 => .hrWpart
  | 0x09 => .hrMsBits
  | 0x0A => .hrMsBytes
  | 0x0B => .hrMsCmd
  | n =>
    if n < 0x10 then .hostReserved0C0F false (addr.setWidth 2) v
    else if n < 0x20 then .hrFrontData (addr.setWidth 4)
    else if n < 0x30 then .hrMsData (addr.setWidth 4)
    else .hostReserved303F false (addr.setWidth 4) v

/-- A write, select `1aaaaaa` (30_encoding.md R111, 20_memory.md R72). -/
def decodeHostWrite (addr : BitVec 6) (v : Byte) : Instr :=
  match addr.toNat with
  | 0x00 => .hwStatusIgnored v
  | 0x01 => .hwFlagclr v
  | 0x02 => .hwCtrl v
  | 0x03 => .hwCmd v
  | 0x04 => .hwQlenIgnored v
  | 0x05 => .hwFrontBitsIgnored v
  | 0x06 => .hwFrontBytesIgnored v
  | 0x07 => .hwWkey v
  | 0x08 => .hwWpart v
  | 0x09 => .hwMsBitsIgnored v
  | 0x0A => .hwMsBytesIgnored v
  | 0x0B => .hwMsCmdIgnored v
  | n =>
    if n < 0x10 then .hostReserved0C0F true (addr.setWidth 2) v
    else if n < 0x20 then .hwFrontDataIgnored (addr.setWidth 4) v
    else if n < 0x30 then .hwMsDataIgnored (addr.setWidth 4) v
    else .hostReserved303F true (addr.setWidth 4) v

/-- The HOST select `{h_we, h_addr[5:0]}` (30_encoding.md R111), with the data byte. -/
def decodeHost (sel : BitVec 7) (v : Byte) : Instr :=
  if sel.getLsbD 6 then decodeHostWrite (sel.setWidth 6) v else decodeHostRead (sel.setWidth 6) v

/-- A command code (30_encoding.md R112). -/
def decodeCmd (code : Byte) : Instr :=
  match code.toNat with
  | 0x00 => .nop
  | 0x01 => .pop
  | 0x02 => .writeKey
  | 0x03 => .filtclr
  | _ => .cmdReserved code

/-- The KEY row of a key; `lower` is bit 5 of a letter's code. -/
def keyInstr (k : Key) (lower : Bool) : Instr :=
  match k with
  | .digit0 => .key0
  | .digit1 => .key1
  | .digit2 => .key2
  | .digit3 => .key3
  | .digit4 => .key4
  | .digit5 => .key5
  | .digit6 => .key6
  | .digit7 => .key7
  | .digit8 => .key8
  | .digit9 => .key9
  | .star => .keyStar
  | .hash => .keyHash
  | .fire => .keyFire lower
  | .aux => .keyAux lower
  | .panic => .keyPanic lower
  | .stay => .keyStay lower
  | .away => .keyAway lower
  | .night => .keyNight lower
  | .chime => .keyChime lower
  | .reset => .keyReset lower
  | .exit => .keyExit lower
  | .out1 => .keyOut1
  | .out2 => .keyOut2
  | .out3 => .keyOut3
  | .out4 => .keyOut4

/-- A character code (30_encoding.md R113; 44_keys.md R300, R330, R331). -/
def decodeKey (code : Byte) : Instr :=
  match Machine.keyOfCode code with
  | some k => keyInstr k (code.getLsbD 5)
  | none => if code = 0x2F#8 then .keySlashRejected else .keyUnknownRejected code

/-- The operation some bytes of one format stand for, and the bytes after it. A TICK is its pattern byte and a byte
with the data level in bit 0; a HOST access its select byte and its data byte; a command and a character are one
byte. The spec gives the patterns and not their packing into bytes: DESIGN CHOICE (log 18), safe. -/
def decode (f : Format) (bytes : List Byte) : Except DecodeError (Instr × List Byte) :=
  match f, bytes with
  | .event, _ => .error .eventHasNoEncoding
  | .tick, p :: d :: rest =>
    if 8 ≤ p.toNat then .error .tickPatternTooWide
    else if 2 ≤ d.toNat then .error .dataLevelTooWide
    else .ok (decodeTick (p.setWidth 3) (d.getLsbD 0), rest)
  | .host, a :: v :: rest =>
    if 0x80 ≤ a.toNat then .error .hostSelectTooWide else .ok (decodeHost (a.setWidth 7) v, rest)
  | .cmd, code :: rest => .ok (decodeCmd code, rest)
  | .key, code :: rest => .ok (decodeKey code, rest)
  | .tick, _ => .error .truncated
  | .host, _ => .error .truncated
  | .cmd, _ => .error .truncated
  | .key, _ => .error .truncated

/-! ### The encoder -/

/-- A bit as a byte. -/
def bitByte (b : Bool) : Byte := (BitVec.ofBool b).setWidth 8

/-- The bytes of a tick with pattern `p` and data level `d`. -/
def tickWords (p : Byte) (d : Bool) : Option (Format × List Byte) := some (.tick, [p, bitByte d])

/-- The bytes of a host access with select `a` and data byte `v`. -/
def hostWords (a : Byte) (v : Byte) : Option (Format × List Byte) := some (.host, [a, v])

/-- The byte of a command code. -/
def cmdWords (code : Byte) : Option (Format × List Byte) := some (.cmd, [code])

/-- The byte of a character code. -/
def keyWords (code : Byte) : Option (Format × List Byte) := some (.key, [code])

/-- A letter's code from its upper-case code: bit 5 is the letter-case bit. -/
def letterCode (upper : Byte) (lower : Bool) : Byte := if lower then upper ||| 0x20#8 else upper

/-- The format and bytes of an operation, column "encoding" of spec/opcode_table.json; none for an EVENT. A read's
data byte, which nothing reads (43_host_ops.md R221), is 0x00. -/
def encode (i : Instr) : Option (Format × List Byte) :=
  match i with
  | .tickFirst q c d => tickWords ((0b00#2 ++ BitVec.ofBool q ++ BitVec.ofBool c).setWidth 8) d
  | .edgeRise d => tickWords 0b101#8 d
  | .edgeFall d => tickWords 0b110#8 d
  | .tickHoldLow d => tickWords 0b100#8 d
  | .tickHoldHigh d => tickWords 0b111#8 d
  | .sampleP _ => none
  | .sampleM _ => none
  | .eof => none
  | .disc => none
  | .enqueue => none
  | .hrStatus => hostWords 0b0000000#8 0#8
  | .hwFlagclr v => hostWords 0b1000001#8 v
  | .hrCtrl => hostWords 0b0000010#8 0#8
  | .hwCtrl v => hostWords 0b1000010#8 v
  | .hwCmd v => hostWords 0b1000011#8 v
  | .hrQlen => hostWords 0b0000100#8 0#8
  | .hrFrontBits => hostWords 0b0000101#8 0#8
  | .hrFrontBytes => hostWords 0b0000110#8 0#8
  | .hrWkey => hostWords 0b0000111#8 0#8
  | .hwWkey v => hostWords 0b1000111#8 v
  | .hrWpart => hostWords 0b0001000#8 0#8
  | .hwWpart v => hostWords 0b1001000#8 v
  | .hrMsBits => hostWords 0b0001001#8 0#8
  | .hrMsBytes => hostWords 0b0001010#8 0#8
  | .hrMsCmd => hostWords 0b0001011#8 0#8
  | .hrFrontData i => hostWords (0b0001#4 ++ i) 0#8
  | .hrMsData i => hostWords (0b0010#4 ++ i) 0#8
  | .hostReserved0C0F we lo v => hostWords (0b0#1 ++ BitVec.ofBool we ++ 0b0011#4 ++ lo) v
  | .hostReserved303F we lo v => hostWords (0b0#1 ++ BitVec.ofBool we ++ 0b11#2 ++ lo) v
  | .hwStatusIgnored v => hostWords 0b1000000#8 v
  | .hrFlagclrZero => hostWords 0b0000001#8 0#8
  | .hrCmdZero => hostWords 0b0000011#8 0#8
  | .hwQlenIgnored v => hostWords 0b1000100#8 v
  | .hwFrontBitsIgnored v => hostWords 0b1000101#8 v
  | .hwFrontBytesIgnored v => hostWords 0b1000110#8 v
  | .hwMsBitsIgnored v => hostWords 0b1001001#8 v
  | .hwMsBytesIgnored v => hostWords 0b1001010#8 v
  | .hwMsCmdIgnored v => hostWords 0b1001011#8 v
  | .hwFrontDataIgnored i v => hostWords (0b0101#4 ++ i) v
  | .hwMsDataIgnored i v => hostWords (0b0110#4 ++ i) v
  | .nop => cmdWords 0x00#8
  | .pop => cmdWords 0x01#8
  | .writeKey => cmdWords 0x02#8
  | .filtclr => cmdWords 0x03#8
  | .cmdReserved code => cmdWords code
  | .key0 => keyWords 0x30#8
  | .key1 => keyWords 0x31#8
  | .key2 => keyWords 0x32#8
  | .key3 => keyWords 0x33#8
  | .key4 => keyWords 0x34#8
  | .key5 => keyWords 0x35#8
  | .key6 => keyWords 0x36#8
  | .key7 => keyWords 0x37#8
  | .key8 => keyWords 0x38#8
  | .key9 => keyWords 0x39#8
  | .keyStar => keyWords 0x2A#8
  | .keyHash => keyWords 0x23#8
  | .keyFire l => keyWords (letterCode 0x46#8 l)
  | .keyAux l => keyWords (letterCode 0x41#8 l)
  | .keyPanic l => keyWords (letterCode 0x50#8 l)
  | .keyStay l => keyWords (letterCode 0x53#8 l)
  | .keyAway l => keyWords (letterCode 0x57#8 l)
  | .keyNight l => keyWords (letterCode 0x4E#8 l)
  | .keyChime l => keyWords (letterCode 0x43#8 l)
  | .keyReset l => keyWords (letterCode 0x52#8 l)
  | .keyExit l => keyWords (letterCode 0x58#8 l)
  | .keyOut1 => keyWords 0x5B#8
  | .keyOut2 => keyWords 0x5D#8
  | .keyOut3 => keyWords 0x7B#8
  | .keyOut4 => keyWords 0x7D#8
  | .keySlashRejected => keyWords 0x2F#8
  | .keyUnknownRejected code => keyWords code

/-! ### A word of the opcode table without its format -/

/-- A character that the table gives all eight bits: a key that is no letter, or `/`. -/
def fixedCharacter (w : Nat) : Bool :=
  decide (w < 0x40 ∨ w = 0x5B ∨ w = 0x5D ∨ w = 0x7B ∨ w = 0x7D)
    && ((Machine.keyOfCode (BitVec.ofNat 8 w)).isSome || decide (w = 0x2F))

/-- Which format a bare table word is read in. The table's formats overlap (the word 0 is TICK_FIRST, HR_STATUS and
NOP), so a choice is needed: first the rows that fix every bit of their format, in the order CMD, TICK, KEY, HOST;
then the letters of KEY, then the rest of HOST, then CMD. DESIGN CHOICE (log 13), safe: `step` never uses it. -/
def tableFormat (nbits w : Nat) : Format :=
  if nbits ≤ 3 then .tick
  else if nbits ≤ 7 then .host
  else if w < 4 then .cmd
  else if w < 8 then .tick
  else if fixedCharacter (w % 256) then .key
  else if w % 256 % 0x40 < 0x0C ∧ w % 256 < 0x80 then .host
  else if (Machine.keyOfCode (BitVec.ofNat 8 w)).isSome then .key
  else if w % 256 < 0x80 then .host
  else .cmd

/-- The bytes of a bare table word: its low byte, and its next byte for the operand. -/
def tableBytes (w : Nat) : List Byte := [BitVec.ofNat 8 w, BitVec.ofNat 8 (w / 256)]

/-- The operation the decoder reads from a bare table word. -/
def decodeTableWord (nbits w : Nat) : Option Instr :=
  match decode (tableFormat nbits w) (tableBytes w) with
  | .ok (i, _) => some i
  | .error _ => none

end Sys2Proof
end

