-- ==== Sys2Proof/Machine/Fetch.lean ====
section
/-! DEFINITION. How the next step is selected: which configuration is refused, how an input becomes an operation,
and how a bare word of the opcode table is put where the next step takes its input. -/

namespace Sys2Proof.Machine

/-- A configuration outside the spec is refused (00_scope.md R5, R9; 93_implementation_defined.md I8, I24). DEDUCED
(log 15), safe. -/
def configRefusal (c : Config) : Option Refusal :=
  if c.dialect = .classic then some .classicDialect
  else if c.constraintsOk then none
  else some .badConfiguration

/-- The TICK select `{clk_seen, clk_q, c}` of a tick (30_encoding.md R110). -/
def Device.tickPattern (v : Device) (c : Bool) : BitVec 3 :=
  BitVec.ofBool v.clkSeen ++ BitVec.ofBool v.clkQ ++ BitVec.ofBool c

/-- The HOST select `{h_we, h_addr[5:0]}` of an access (30_encoding.md R111). -/
def hostSelect (we : Bool) (addr : BitVec 6) : BitVec 7 := BitVec.ofBool we ++ addr

/-- The operation an input selects; none for `rst`, which performs no step of either agent (70_reset_and_hazards.md
R280). -/
def Device.selects (v : Device) (x : Input) : Option Instr :=
  match x with
  | .rst => none
  | .tick c d => some (decodeTick (v.tickPattern c) d)
  | .host we addr wdata => some (decodeHost (hostSelect we addr) wdata)

/-- The same selection as a format and bytes, for the byte decoder. -/
def Device.inputWords (v : Device) (x : Input) : Option (Format × List Byte) :=
  match x with
  | .rst => none
  | .tick c d => some (.tick, [(v.tickPattern c).setWidth 8, bitByte d])
  | .host we addr wdata => some (.host, [(hostSelect we addr).setWidth 8, wdata])

/-- A new step begins: its input is taken and the outputs of the step before it are gone (log 6). -/
def State.begin (s : State) (rest : List Input) : State := { s with inputs := rest, out := Output.none }

/-- Reset: "every state element takes the reset value" (70_reset_and_hazards.md R280). -/
def State.resetDevice (s : State) : State := s.withDev (Device.reset s.cfg)

/-- Put one input before the others. -/
def State.pushInput (s : State) (x : Input) : State := { s with inputs := x :: s.inputs }

/-- CMD, the address of the command register (10_state.md R46). -/
def cmdAddr : BitVec 6 := 0x03#6

/-- A bare table word, placed so that the very next step takes it (log 14). A TICK word holds two bits of the state,
`clk_seen` and `clk_q`, so they are set from it; a character is put into WKEY and WRITE_KEY is issued; a command
code is written to CMD. -/
def State.placeTableWord (s : State) (nbits w : Nat) : State :=
  match tableFormat nbits w with
  | .tick =>
    (s.withDev { s.dev with clkSeen := w.testBit 2, clkQ := w.testBit 1 }).pushInput
      (.tick (w.testBit 0) (w.testBit 8))
  | .event => s
  | .host => s.pushInput (.host (w.testBit 6) (BitVec.ofNat 6 w) (BitVec.ofNat 8 (w / 256)))
  | .cmd => s.pushInput (.host true cmdAddr (BitVec.ofNat 8 w))
  | .key =>
    (s.withDev { s.dev with wkey := BitVec.ofNat 8 w }).pushInput (.host true cmdAddr 0x02#8)

end Sys2Proof.Machine
end

