-- ==== Sys2Proof/Machine/Step.lean ====
section
/-! DEFINITION. One step of the machine: it takes the oldest input and performs the operation the input selects
(20_memory.md R76). -/

namespace Sys2Proof.Machine

/-- One step. With no input pending `clk_sys` is not running and "all state [is] frozen" (60_exceptions.md R275;
93_implementation_defined.md I25; log 4). -/
def step (s : State) : Host.Outcome State Fault Refusal :=
  match configRefusal s.cfg with
  | some r => .refused r
  | none =>
    match s.inputs with
    | [] => .next s
    | x :: rest =>
      match s.dev.selects x with
      | none => .next (s.begin rest).resetDevice
      | some i => exec i (s.begin rest)

/-- The state whose very next step runs the bare table word `w` (log 14). -/
def State.withFetchWord (s : State) (nbits w : Nat) : State := s.placeTableWord nbits w

end Sys2Proof.Machine
end

