-- ==== Sys2Proof/Machine/Ports.lean ====
section
/-! DEFINITION. The ports of one `clk_sys` period and the inputs they amount to (10_state.md R57; 20_memory.md R76;
60_exceptions.md R268). -/

namespace Sys2Proof.Machine

/-- The input ports of one `clk_sys` period (10_state.md R57). `kbData` is the level the rest of the bus presents;
the raw pin level does as well, since "`drive_low = 1` implies `kb_data_i = 0`" (R58). -/
structure Period where
  rst : Bool
  kbClk : Bool
  kbData : Bool
  hValid : Bool
  hWe : Bool
  hAddr : BitVec 6
  hWdata : Byte
  deriving DecidableEq, Repr

/-- The steps of one period, in order: with `rst` neither agent steps (70_reset_and_hazards.md R280); else the host
access, if there is one, and then the tick (20_memory.md R76). "when `h_valid` = 0 there is no host step in that
tick whatever the other host inputs show" (43_host_ops.md R221). -/
def Period.inputs (p : Period) : List Input :=
  if p.rst then [.rst]
  else if p.hValid then [.host p.hWe p.hAddr p.hWdata, .tick p.kbClk p.kbData]
  else [.tick p.kbClk p.kbData]

/-- The machine with one more period of port values to come. -/
def State.feed (s : State) (p : Period) : State := { s with inputs := s.inputs ++ p.inputs }

/-- The output port `kb_drive_low_o` (10_state.md R57, R40). -/
def State.kbDriveLow (s : State) : Bool := s.dev.driveLow

/-- The output port `h_rdata`: a value only after a read (10_state.md R57; log 6). -/
def State.hRdata (s : State) : Option Byte := s.out.rdata

end Sys2Proof.Machine
end

