-- ==== Sys2Proof/Machine/Stimulus.lean ====
section
/-! DEFINITION. The stimulus notation of 30_encoding.md R120 to R126 as lists of inputs. It is the spec's own way to
write sequences of steps; no operation depends on it. -/

namespace Sys2Proof.Machine

/-- `T c d *n` (30_encoding.md R120). -/
def stimT (c d : Bool) (n : Nat) : List Input := List.replicate n (.tick c d)

/-- `HR a` (30_encoding.md R121). -/
def stimHR (addr : BitVec 6) : List Input := [.host false addr 0x00#8]

/-- `HW a v` (30_encoding.md R121). -/
def stimHW (addr : BitVec 6) (v : Byte) : List Input := [.host true addr v]

/-- `CYC m p` with a half of `half` ticks (30_encoding.md R122, R123). -/
def stimCyc (half : Nat) (m p : Bool) : List Input := stimT false m half ++ stimT true p half

/-- `GAP n` (30_encoding.md R124). -/
def stimGap (n : Nat) : List Input := stimT true true n

/-- `PBITS b0 b1 ... M: m0 m1 ...` as pairs (module bit, panel bit) (30_encoding.md R125). -/
def stimBits (half : Nat) (bits : List (Bool × Bool)) : List Input :=
  bits.flatMap fun b => stimCyc half b.1 b.2

/-- `PBITS b0 b1 ...`: no module answers (30_encoding.md R125). -/
def stimPbits (half : Nat) (bits : List Bool) : List Input := stimBits half (bits.map fun b => (true, b))

/-- The eight bits of a byte, most significant first (20_memory.md R75). -/
def msbFirst (b : Byte) : List Bool :=
  [b.getLsbD 7, b.getLsbD 6, b.getLsbD 5, b.getLsbD 4, b.getLsbD 3, b.getLsbD 2, b.getLsbD 1, b.getLsbD 0]

/-- The panel bits of `FRAME x0 x1 ... xk` with `stop=s` (30_encoding.md R126). -/
def frameBits (x0 : Byte) (xs : List Byte) (stop : Bool) : List Bool :=
  msbFirst x0 ++ [stop] ++ xs.flatMap msbFirst

/-- `FRAME x0 x1 ... xk` with `stop=s`, and the gap of 4500 ticks after it (30_encoding.md R126). -/
def stimFrame (half : Nat) (x0 : Byte) (xs : List Byte) (stop : Bool) : List Input :=
  stimPbits half (frameBits x0 xs stop) ++ stimGap 4500

end Sys2Proof.Machine
end

