-- ==== Sys2Proof/Safety.lean ====
section
/-! DEFINITION. What holds of the block in every reachable state: the invariants of 10_state.md R59 and the few more
that make them inductive. The vocabulary the statements use. -/

namespace Sys2Proof.Machine

/-- Every array has the length 10_state.md R20 gives it. -/
structure Shape (c : Config) (v : Device) : Prop where
  pData : v.pData.length = c.readSize
  mData : v.mData.length = c.readSize
  msData : v.msData.length = c.readSize
  filtLength : v.filt.length = c.nFilt
  filtData : ∀ e ∈ v.filt, e.data.length = c.readSize
  slotsLength : v.slots.length = c.queueCap
  slotsData : ∀ f ∈ v.slots, f.data.length = c.readSize

/-- The bits already in the byte that receives wire bit n (30_encoding.md R103). -/
def bitsInByte (n : Nat) : Nat := if n < 8 then n else if n = 8 then 0 else (n - 9) % 8

/-- R59 (iii) for one stream: bytes above the current one are 0, and the current one is 0 above the bits in. -/
structure Assembled (data : List Byte) (n : Nat) : Prop where
  above : ∀ j, byteIndex n < j → byteAt data j = 0#8
  partialByte : (byteAt data (byteIndex n)).toNat < 2 ^ bitsInByte n

/-- R59 (i): `q_head = (q_tail + q_len) mod QUEUE_CAP`, with the ranges of 10_state.md R34. -/
structure QueueOk (c : Config) (v : Device) : Prop where
  head : v.qHead = (v.qTail + v.qLen) % c.queueCap
  tail : v.qTail < c.queueCap
  len : v.qLen ≤ c.queueCap

/-- The index of live frame i, oldest first (10_state.md R34). -/
def Device.liveIndex (c : Config) (v : Device) (i : Nat) : Nat := (v.qTail + i) % c.queueCap

/-- The live frames, oldest first (10_state.md R34). -/
def Device.liveFrames (c : Config) (v : Device) : List FrameSlot :=
  (List.range v.qLen).map fun i => v.slotAt (v.liveIndex c i)

/-- R59 (viii) for one live frame. -/
structure FrameOk (c : Config) (f : FrameSlot) : Prop where
  bytes : f.bytes = byteCount f.bits
  minBits : c.minFrameBits ≤ f.bits
  maxBits : f.bits ≤ c.maxBits

/-- R59 (iv), (v), (vi), and what makes them inductive: a request is held only with the writer enabled and after
the first tick, and an open window is at most seven bits past its start. -/
structure WriterOk (c : Config) (v : Device) : Prop where
  drive : v.driveLow = true → v.clkQ = false ∧ v.wrPending = true ∧ v.wrActive = true ∧ v.vkpEn = true
  last : v.wrLast = true → v.wrActive = true ∧ v.clkQ = false
  active : v.wrActive = true → v.wrPending = true ∧ v.synced = true
  second : v.wrSecond = true → v.wrPending = true ∧ v.wrAlarm = true
  pending : v.wrPending = true → v.vkpEn = true ∧ v.clkSeen = true ∧ v.wrStart + 8 ≤ c.maxBits
  window : v.wrActive = true → v.wrStart ≤ v.pBits ∧ v.pBits ≤ v.wrStart + 7
  lowHalf : v.wrActive = true → v.clkQ = false → (v.wrLast = true ↔ v.pBits = v.wrStart + 7)
  highHalf : v.wrActive = true → v.clkQ = true → v.sampArmed = true → v.pBits ≤ v.wrStart + 6

/-- R59 (vii), and how the three timers run together: all restart at an edge or at the first tick. -/
structure TimersOk (c : Config) (v : Device) : Prop where
  high : v.highCnt ≤ c.tEof + 1
  idle : v.idleCnt ≤ c.tDisc + 1
  sampRange : v.sampCnt ≤ c.tSample
  samp : v.sampArmed = true → v.sampCnt < c.tSample ∧ v.sampCnt = v.idleCnt ∧ v.clkSeen = true
  fresh : v.clkSeen = false → v.highCnt = 0 ∧ v.idleCnt = 0 ∧ v.connected = false ∧ v.synced = false
  highIdle : v.clkQ = true → v.highCnt ≤ c.tEof → v.idleCnt = v.highCnt
  highSat : v.clkQ = true → v.highCnt = c.tEof + 1 → c.tEof + 1 ≤ v.idleCnt

/-- After a boundary, while the clock stays high, the assembly is clear (40_sampler.md R164, corner cases), and
before synchronisation nothing is assembled (10_state.md R31). -/
structure QuietOk (c : Config) (v : Device) : Prop where
  boundary : v.clkQ = true → v.highCnt = c.tEof + 1 → v.pBits = 0 ∧ v.mBits = 0 ∧ v.mDetect = false
  unsynced : v.synced = false → v.pBits = 0 ∧ v.mBits = 0 ∧ v.mDetect = false

/-- What every reachable state of the block satisfies (10_state.md R59). -/
structure Inv (c : Config) (v : Device) : Prop where
  shape : Shape c v
  queue : QueueOk c v
  live : ∀ f ∈ v.liveFrames c, FrameOk c f
  pBits : v.pBits ≤ c.maxBits
  mBits : v.mBits ≤ c.maxBits
  msBits : v.msBits ≤ c.maxBits
  panelStream : Assembled v.pData v.pBits
  moduleStream : Assembled v.mData v.mBits
  writer : WriterOk c v
  timers : TimersOk c v
  quiet : QuietOk c v

/-- The widths of 10_state.md R20: each counter fits the bits the table gives it. `W(x)` bits hold x. -/
structure Widths (c : Config) (v : Device) : Prop where
  sampCnt : v.sampCnt < 2 ^ (Nat.log2 c.tSample + 1)
  highCnt : v.highCnt < 2 ^ (Nat.log2 (c.tEof + 1) + 1)
  idleCnt : v.idleCnt < 2 ^ (Nat.log2 (c.tDisc + 1) + 1)
  pBits : v.pBits < 2 ^ 8
  mBits : v.mBits < 2 ^ 8
  msBits : v.msBits < 2 ^ 8
  liveBits : ∀ f ∈ v.liveFrames c, f.bits < 2 ^ 8 ∧ f.bytes < 2 ^ 5
  qHead : v.qHead < 2 ^ (Nat.log2 (c.queueCap - 1) + 1)
  qTail : v.qTail < 2 ^ (Nat.log2 (c.queueCap - 1) + 1)
  qLen : v.qLen < 2 ^ 8
  wrStart : v.wrPending = true → v.wrStart < 2 ^ 8

/-- A configuration and a block that fit: what a reachable machine satisfies. -/
def State.Good (s : State) : Prop := s.cfg.wf = true ∧ Inv s.cfg s.dev

/-- The 22 keys written at a partition's slot, with the pattern each loads (44_keys.md R300, alarm column 0). -/
def slotKeyRows (p : KeyPatterns) (lower : Bool) : List (Instr × Byte) :=
  [(.key0, p.digit0), (.key1, p.digit1), (.key2, p.digit2), (.key3, p.digit3), (.key4, p.digit4), (.key5, p.digit5),
   (.key6, p.digit6), (.key7, p.digit7), (.key8, p.digit8), (.key9, p.digit9), (.keyStar, p.star), (.keyHash, p.hash),
   (.keyStay lower, p.stay), (.keyAway lower, p.away), (.keyNight lower, p.night), (.keyChime lower, p.chime),
   (.keyReset lower, p.reset), (.keyExit lower, p.exit), (.keyOut1, p.out1), (.keyOut2, p.out2), (.keyOut3, p.out3),
   (.keyOut4, p.out4)]

/-- The three alarm keys, with the pattern each loads (44_keys.md R300, alarm column 1). -/
def alarmKeyRows (p : KeyPatterns) (lower : Bool) : List (Instr × Byte) :=
  [(.keyFire lower, p.fire), (.keyAux lower, p.aux), (.keyPanic lower, p.panic)]

/-- The writes to read-only registers, which are ignored (20_memory.md R84). -/
def ignoredWriteRows (i : BitVec 4) (v : Byte) : List Instr :=
  [.hwStatusIgnored v, .hwQlenIgnored v, .hwFrontBitsIgnored v, .hwFrontBytesIgnored v, .hwMsBitsIgnored v,
   .hwMsBytesIgnored v, .hwMsCmdIgnored v, .hwFrontDataIgnored i v, .hwMsDataIgnored i v]

/-- A run of the given inputs, one step each, from `s` (its own pending inputs replaced). -/
def State.runInputs (s : State) (l : List Input) : Host.Outcome State Fault Refusal :=
  Host.Core.run Sys2Proof.core l.length { s with inputs := l }

end Sys2Proof.Machine
end

