-- ==== Sys2Proof/Certificates/Slice0/Obligations.lean ====
section
/-! DEFINITION. The statements about KBS, from the numbered rules of spec/. Each holds for every configuration unless
it says `wf`, the constraints of 00_scope.md R4 and R5 and the PowerSeries dialect of R9. `out.raised` is the model's
trace of the points that the spec marks `raise` (60_exceptions.md R260; log 6). -/

open Sys2Proof Sys2Proof.Machine

/-! ### Encoding and selection -/

/-- Every well-formed operation that has an encoding is decoded from its encoding, whatever bytes follow. The
packing of a pattern and its operand into bytes is the model's (log 18). -/
def Obligations.DecodeOfEncodeIsTheOperation : Prop :=
  ∀ (i : Instr) (rest : List Byte), i.wf = true → i.isEvent = false →
    ∃ f bytes, encode i = some (f, bytes) ∧ decode f (bytes ++ rest) = .ok (i, rest)

/-- Whatever bytes are decoded, the operation is well formed and is no event (30_encoding.md R110 to R113). -/
def Obligations.DecodedOperationIsWellFormed : Prop :=
  ∀ (f : Format) (bytes rest : List Byte) (i : Instr), decode f bytes = .ok (i, rest) →
    i.wf = true ∧ i.isEvent = false

/-- The first byte of a decoded operation, its select pattern or its code, is the one the encoder writes: no bit of
a pattern is read and dropped. -/
def Obligations.EncoderKeepsEverySelectBit : Prop :=
  ∀ (f : Format) (b : Byte) (bytes rest : List Byte) (i : Instr), decode f (b :: bytes) = .ok (i, rest) →
    ∃ more, encode i = some (f, b :: more)

/-- Words written out from the tables of 30_encoding.md R110 to R113 and 44_keys.md R300, one or two per format. -/
def Obligations.WordsOfEachFormatDecode : Prop :=
  decode .tick [0b101#8, 1#8] = .ok (.edgeRise true, []) ∧ decode .tick [0b110#8, 0#8] = .ok (.edgeFall false, []) ∧
    decode .host [0b1000010#8, 0x03#8] = .ok (.hwCtrl 0x03#8, []) ∧
    decode .host [0b0011010#8, 0#8] = .ok (.hrFrontData 0b1010#4, []) ∧
    decode .cmd [0x01#8] = .ok (.pop, []) ∧ decode .cmd [0x7E#8] = .ok (.cmdReserved 0x7E#8, []) ∧
    decode .key [0x73#8] = .ok (.keyStay true, []) ∧ decode .key [0x2F#8] = .ok (.keySlashRejected, []) ∧
    decode .event [0x00#8] = .error .eventHasNoEncoding

/-- The tick's operation is selected by `{clk_seen, clk_q, c}` (30_encoding.md R110). -/
def Obligations.TickIsSelectedByClockHistory : Prop :=
  ∀ (v : Device) (c d : Bool),
    v.selects (.tick c d) = some
      (if v.clkSeen = false then .tickFirst v.clkQ c d
      else if v.clkQ = false ∧ c = true then .edgeRise d
      else if v.clkQ = true ∧ c = false then .edgeFall d
      else if c = false then .tickHoldLow d
      else .tickHoldHigh d)

/-- A step runs the operation its input's words decode to, on the state with that input taken and the outputs of the
step before it gone; every tick and every host access has such words. That a step takes one pending input and clears
the outputs of the step before is the model's (log 4, log 6). -/
def Obligations.StepRunsTheDecodedOperation : Prop :=
  ∀ (s : State) (x : Input) (rest : List Input), s.cfg.wf = true → s.inputs = x :: rest → x ≠ .rst →
    ∃ f bytes i, s.dev.inputWords x = some (f, bytes) ∧ decode f bytes = .ok (i, []) ∧ i.wf = true ∧
      step s = exec i { s with inputs := rest, out := ⟨none, []⟩ }

/-- With a configuration the spec gives a meaning, a step never stops: it answers a next state, takes exactly one
pending input and leaves the parameters alone. The queue of pending inputs is the model's (log 4). -/
def Obligations.StepAlwaysAnswersNext : Prop :=
  ∀ s : State, s.cfg.wf = true →
    ∃ t, step s = .next t ∧ t.cfg = s.cfg ∧ t.inputs = s.inputs.tail

/-- A configuration that breaks a constraint, or asks for Classic, is refused (00_scope.md R5, R9). -/
def Obligations.BadConfigurationIsRefused : Prop :=
  ∀ s : State,
    (s.cfg.dialect = .classic → step s = .refused .classicDialect) ∧
    (s.cfg.dialect = .powerSeries →
      s.cfg.tickNs = 0 ∨ s.cfg.tSample = 0 ∨ s.cfg.tEof < s.cfg.tSample ∨ s.cfg.tDisc ≤ s.cfg.tEof ∨
        s.cfg.readSize < 3 ∨ 16 < s.cfg.readSize ∨ s.cfg.queueCap = 0 ∨ 255 < s.cfg.queueCap ∨
        s.cfg.minFrameBits = 0 ∨ 8 * s.cfg.readSize - 7 < s.cfg.minFrameBits ∨ ¬ s.cfg.periodicCmds.Nodup ∨
        s.cfg.maxPartitions = 0 ∨ 8 < s.cfg.maxPartitions ∨
        (∃ e ∈ s.cfg.slots, e.start < 9 ∨ 8 * s.cfg.readSize - 7 < e.start + 8) ∨
        8 * s.cfg.readSize - 7 < s.cfg.alarmStart + 8 →
      step s = .refused .badConfiguration)

/-- With no input the clock is not running and nothing changes (60_exceptions.md R275; log 4). -/
def Obligations.NoInputFreezesTheBlock : Prop :=
  ∀ s : State, s.cfg.wf = true → s.inputs = [] → step s = .next s

/-- In one period the host access is first and the tick second (20_memory.md R76). -/
def Obligations.HostAccessPrecedesTheTick : Prop :=
  ∀ (s : State) (p : Period), s.cfg.wf = true → s.inputs = [] → p.rst = false → p.hValid = true →
    ∃ t u, step { s with inputs := [.host p.hWe p.hAddr p.hWdata] } = .next t ∧
      step { t with inputs := [.tick p.kbClk p.kbData] } = .next u ∧
      Host.Core.run Sys2Proof.core 2 (s.feed p) = .next u

/-! ### Reset -/

/-- A period with `rst` = 1 performs no step and gives every element its reset value: 0, and `WPART` 0x01
(70_reset_and_hazards.md R280, 10_state.md R20). That a step takes one pending input and clears the outputs of the
step before is the model's (log 4, log 6). -/
def Obligations.ResetGivesEveryElementItsResetValue : Prop :=
  ∀ (s : State) (rest : List Input), s.cfg.wf = true → s.inputs = .rst :: rest →
    step s = .next
      { cfg := s.cfg, inputs := rest, out := ⟨none, []⟩
        dev :=
          { clkSeen := false, clkQ := false, sampArmed := false, sampCnt := 0, highCnt := 0, idleCnt := 0
            synced := false, pData := List.replicate s.cfg.readSize 0x00#8, pBits := 0
            mData := List.replicate s.cfg.readSize 0x00#8, mBits := 0, mDetect := false
            filt := List.replicate s.cfg.periodicCmds.length ⟨false, List.replicate s.cfg.readSize 0x00#8⟩
            slots := List.replicate s.cfg.queueCap ⟨List.replicate s.cfg.readSize 0x00#8, 0, 0⟩
            qHead := 0, qTail := 0, qLen := 0, overflow := false, connected := false, connChanged := false
            msData := List.replicate s.cfg.readSize 0x00#8, msBits := 0, msCmd := 0x00#8, msValid := false
            wrPending := false, wrPattern := 0x00#8, wrStart := 0, wrCmd := 0x00#8, wrAny := false
            wrAlarm := false, wrSecond := false, wrActive := false, wrLast := false, driveLow := false
            vkpEn := false, modEn := false, wkey := 0x00#8, wpart := 0x01#8 } }

/-- After reset the host reads 0x10 at STATUS, 0x01 at WPART and 0x00 everywhere else (70_reset_and_hazards.md
R281), in every configuration. -/
def Obligations.HostViewAfterReset : Prop :=
  ∀ (c : Config) (addr : BitVec 6) (w : Byte),
    exec (decodeHost (hostSelect false addr) w) (State.resetWith c) = .next
      { State.resetWith c with
        out := ⟨some (if addr = 0x00#6 then 0x10#8 else if addr = 0x08#6 then 0x01#8 else 0x00#8), []⟩ }

/-! ### The TICK family -/

/-- TICK_FIRST loads the clock level and sets `clk_seen`; nothing else moves, whatever the levels. It is what a step
does with the first tick after reset (40_sampler.md R140). That a step takes one pending input and clears the outputs
of the step before is the model's (log 4, log 6). -/
def Obligations.FirstTickOnlyLoadsTheClock : Prop :=
  ∀ (q c d : Bool) (s : State),
    exec (.tickFirst q c d) s = .next { s with dev := { s.dev with clkSeen := true, clkQ := c } } ∧
    ∀ rest : List Input, s.cfg.wf = true → s.dev.clkSeen = false → s.inputs = .tick c d :: rest →
      step s = .next
        { s with inputs := rest, out := ⟨none, []⟩, dev := { s.dev with clkSeen := true, clkQ := c } }

/-- EDGE_RISE, whole: EdgeCommon, `high_cnt`, the release of the line and, when the last bit was presented,
WriteComplete with the second write of an alarm key (40_sampler.md R142, R143; 42_writer.md R207 to R209). -/
def Obligations.RisingEdgeReleasesAndCompletes : Prop :=
  ∀ (d : Bool) (s : State),
    exec (.edgeRise d) s = .next
      { s with
        dev :=
          { s.dev with
            clkQ := true, idleCnt := 0, sampArmed := true, sampCnt := 0, highCnt := 0, driveLow := false
            connected := true, connChanged := s.dev.connChanged || !s.dev.connected
            wrLast := false
            wrActive := s.dev.wrActive && !s.dev.wrLast
            wrPending := s.dev.wrPending && (!s.dev.wrLast || (s.dev.wrAlarm && !s.dev.wrSecond))
            wrSecond := if s.dev.wrLast then s.dev.wrAlarm && !s.dev.wrSecond else s.dev.wrSecond } }

/-- EDGE_FALL, whole: EdgeCommon and WriterEvaluate. A window opens only at `p_bits` = `wr_start` in a frame that
matches; in it pattern bit 7 − k is presented, low for a 0; otherwise the writer's elements stay
(40_sampler.md R144; 42_writer.md R205, R206). That an open window with `p_bits` < `wr_start`, which no run reaches,
presents nothing is the model's (log 17). -/
def Obligations.FallingEdgePresentsOnePatternBit : Prop :=
  ∀ (d : Bool) (s : State),
    let v := s.dev
    let live := v.wrPending = true ∧ v.vkpEn = true ∧ v.synced = true
    let opens := live ∧ v.wrActive = false ∧ v.pBits = v.wrStart ∧
      (v.wrAny = true ∨ (8 ≤ v.pBits ∧ byteAt v.pData 0 = v.wrCmd))
    let continues := live ∧ v.wrActive = true ∧ v.wrStart ≤ v.pBits ∧ v.pBits ≤ v.wrStart + 7
    ∃ t, exec (.edgeFall d) s = .next t ∧
      t = { s with
            dev :=
              { v with
                clkQ := false, idleCnt := 0, sampArmed := true, sampCnt := 0
                connected := true, connChanged := v.connChanged || !v.connected
                wrActive := t.dev.wrActive, wrLast := t.dev.wrLast, driveLow := t.dev.driveLow } } ∧
      (opens → t.dev.wrActive = true ∧ t.dev.driveLow = !v.wrPattern.getLsbD 7 ∧ t.dev.wrLast = v.wrLast) ∧
      (∀ k, continues → v.pBits = v.wrStart + k →
        t.dev.wrActive = true ∧ t.dev.driveLow = !v.wrPattern.getLsbD (7 - k) ∧
          (t.dev.wrLast = true ↔ k = 7 ∨ v.wrLast = true)) ∧
      (¬ opens → ¬ continues →
        t.dev.wrActive = v.wrActive ∧ t.dev.driveLow = v.driveLow ∧ t.dev.wrLast = v.wrLast)

/-- TICK_HOLD_LOW, whole, through the events it fires: the sample timer counts and at `T_SAMPLE` fires SAMPLE_M on
the level of the pad; then the idle timer counts and on passing `T_DISC` fires DISC (40_sampler.md R145, R146, R149;
10_state.md R58). -/
def Obligations.HoldLowTickFiresItsEvents : Prop :=
  ∀ (d : Bool) (s : State), ∃ s1 s2 : State,
    (if s.dev.sampArmed = true ∧ s.dev.sampCnt + 1 = s.cfg.tSample then
      exec (.sampleM (d && !s.dev.driveLow))
        { s with dev := { s.dev with sampCnt := s.dev.sampCnt + 1, sampArmed := false } } = .next s1
    else s1 =
      { s with
        dev := { s.dev with sampCnt := if s.dev.sampArmed then s.dev.sampCnt + 1 else s.dev.sampCnt } }) ∧
    (if s1.dev.idleCnt = s1.cfg.tDisc then
      exec .disc { s1 with dev := { s1.dev with idleCnt := s1.dev.idleCnt + 1 } } = .next s2
    else s2 =
      { s1 with
        dev :=
          { s1.dev with
            idleCnt := if s1.dev.idleCnt < s1.cfg.tDisc then s1.dev.idleCnt + 1 else s1.dev.idleCnt } }) ∧
    exec (.tickHoldLow d) s = .next { s2 with dev := { s2.dev with clkQ := false } }

/-- TICK_HOLD_HIGH, whole, through the events it fires, in the order sample, EOF, DISC (40_sampler.md R146 to R149;
10_state.md R58). -/
def Obligations.HoldHighTickFiresItsEvents : Prop :=
  ∀ (d : Bool) (s : State), ∃ s1 s2 s3 : State,
    (if s.dev.sampArmed = true ∧ s.dev.sampCnt + 1 = s.cfg.tSample then
      exec (.sampleP (d && !s.dev.driveLow))
        { s with dev := { s.dev with sampCnt := s.dev.sampCnt + 1, sampArmed := false } } = .next s1
    else s1 =
      { s with
        dev := { s.dev with sampCnt := if s.dev.sampArmed then s.dev.sampCnt + 1 else s.dev.sampCnt } }) ∧
    (if s1.dev.highCnt = s1.cfg.tEof then
      exec .eof { s1 with dev := { s1.dev with highCnt := s1.dev.highCnt + 1 } } = .next s2
    else s2 =
      { s1 with
        dev :=
          { s1.dev with
            highCnt := if s1.dev.highCnt < s1.cfg.tEof then s1.dev.highCnt + 1 else s1.dev.highCnt } }) ∧
    (if s2.dev.idleCnt = s2.cfg.tDisc then
      exec .disc { s2 with dev := { s2.dev with idleCnt := s2.dev.idleCnt + 1 } } = .next s3
    else s3 =
      { s2 with
        dev :=
          { s2.dev with
            idleCnt := if s2.dev.idleCnt < s2.cfg.tDisc then s2.dev.idleCnt + 1 else s2.dev.idleCnt } }) ∧
    exec (.tickHoldHigh d) s = .next { s3 with dev := { s3.dev with clkQ := true } }

/-! ### The EVENT family -/

/-- SAMPLE_P appends one bit to the byte it belongs to, or, unsynchronised or saturated, changes nothing
(40_sampler.md R150, R152; 00_scope.md R12). -/
def Obligations.PanelSampleAppendsOneBit : Prop :=
  ∀ (line : Bool) (s : State),
    let n := s.dev.pBits
    let j := if n < 8 then 0 else if n = 8 then 1 else 2 + (n - 9) / 8
    exec (.sampleP line) s = .next
      (if s.dev.synced = true ∧ n < 8 * s.cfg.readSize - 7 then
        { s with
          dev :=
            { s.dev with
              pData := s.dev.pData.set j (byteAt s.dev.pData j * 2#8 + (if line then 1#8 else 0#8))
              pBits := n + 1 } }
      else s)

/-- SAMPLE_M appends one bit to the module stream unless it is saturated, and any low sample sets `m_detect`;
unsynchronised or with `mod_en` = 0 nothing moves (40_sampler.md R154, R152). -/
def Obligations.ModuleSampleAppendsAndDetects : Prop :=
  ∀ (line : Bool) (s : State),
    let n := s.dev.mBits
    let j := if n < 8 then 0 else if n = 8 then 1 else 2 + (n - 9) / 8
    exec (.sampleM line) s = .next
      (if s.dev.synced = true ∧ s.dev.modEn = true then
        { s with
          dev :=
            { s.dev with
              mData :=
                if n < 8 * s.cfg.readSize - 7 then
                  s.dev.mData.set j (byteAt s.dev.mData j * 2#8 + (if line then 1#8 else 0#8))
                else s.dev.mData
              mBits := if n < 8 * s.cfg.readSize - 7 then n + 1 else n
              mDetect := s.dev.mDetect || !line } }
      else s)

/-- Bit-to-byte layout: the eight bits of a byte sampled in a row from its first wire bit leave that byte in its
place, most significant bit first; the ninth wire bit stands alone in byte 1 (30_encoding.md R102). -/
def Obligations.WireBitsAssembleMsbFirst : Prop :=
  ∀ (data : List Byte) (b : Byte) (bits : List Bool), bits = msbFirst b →
    (byteAt data 0 = 0#8 → ((bits.zipIdx 0).foldl (fun a p => appendBit a p.2 p.1) data) = data.set 0 b) ∧
    (∀ j, 2 ≤ j → byteAt data j = 0#8 →
      ((bits.zipIdx (9 + 8 * (j - 2))).foldl (fun a p => appendBit a p.2 p.1) data) = data.set j b) ∧
    (∀ stop : Bool, byteAt data 1 = 0#8 → appendBit data 8 stop = data.set 1 (if stop then 0x01#8 else 0x00#8))

/-- EOF before synchronisation: `synced` is set, the assembly is cleared and nothing is enqueued
(40_sampler.md R158; 60_exceptions.md R266). The mark in the trace is the model's (log 7). -/
def Obligations.FirstBoundaryOnlySynchronises : Prop :=
  ∀ s : State, s.dev.synced = false →
    exec .eof s = .next
      { s with
        dev :=
          { s.dev with
            synced := true, pData := List.replicate s.cfg.readSize 0x00#8, pBits := 0
            mData := List.replicate s.cfg.readSize 0x00#8, mBits := 0, mDetect := false
            wrActive := false, wrLast := false }
        out := { s.out with raised := s.out.raised ++ [.startupSuppressed] } }

/-- EOF of a frame that is too short: discarded, no flag, no snapshot; only the assembly and the open window are
cleared (40_sampler.md R159; 60_exceptions.md R261). -/
def Obligations.ShortFrameIsDiscarded : Prop :=
  ∀ s : State, s.dev.synced = true → s.dev.pBits < s.cfg.minFrameBits →
    exec .eof s = .next
      { s with
        dev :=
          { s.dev with
            pData := List.replicate s.cfg.readSize 0x00#8, pBits := 0
            mData := List.replicate s.cfg.readSize 0x00#8, mBits := 0, mDetect := false
            wrActive := false, wrLast := false }
        out := { s.out with raised := s.out.raised ++ [.shortFrame s.dev.pBits] } }

/-- EOF of a whole frame: the redundancy filter, ENQUEUE unless it skips, the snapshot whether or not it does, and
the clearing; nothing else changes (40_sampler.md R158, R160, R162, R163; 41_fifo_checksum.md R182). -/
def Obligations.WholeFrameIsFilteredQueuedAndSnapshotted : Prop :=
  ∀ s : State, s.cfg.wf = true → Shape s.cfg s.dev → s.dev.synced = true → s.cfg.minFrameBits ≤ s.dev.pBits →
    let v := s.dev
    let cmd := byteAt v.pData 0
    let redundant := ∃ k : Nat, s.cfg.periodicCmds[k]? = some cmd ∧ v.filt[k]? = some (FilterSlot.mk true v.pData)
    ∃ t, exec .eof s = .next t ∧
      t = { s with
            dev :=
              { v with
                pData := List.replicate s.cfg.readSize 0x00#8, pBits := 0
                mData := List.replicate s.cfg.readSize 0x00#8, mBits := 0, mDetect := false
                wrActive := false, wrLast := false
                filt := t.dev.filt, slots := t.dev.slots, qHead := t.dev.qHead, qLen := t.dev.qLen
                overflow := t.dev.overflow
                msData := t.dev.msData, msBits := t.dev.msBits, msCmd := t.dev.msCmd, msValid := t.dev.msValid }
            out := { s.out with raised := t.out.raised } } ∧
      (redundant →
        t.dev.filt = v.filt ∧ t.dev.slots = v.slots ∧ t.dev.qHead = v.qHead ∧ t.dev.qLen = v.qLen ∧
          t.dev.overflow = v.overflow ∧ t.out.raised = s.out.raised) ∧
      (¬ redundant →
        (∀ k : Nat, s.cfg.periodicCmds[k]? = some cmd → t.dev.filt = v.filt.set k ⟨true, v.pData⟩) ∧
        (cmd ∉ s.cfg.periodicCmds → t.dev.filt = v.filt) ∧
        (v.qLen = s.cfg.queueCap →
          t.dev.slots = v.slots ∧ t.dev.qHead = v.qHead ∧ t.dev.qLen = v.qLen ∧ t.dev.overflow = true ∧
            t.out.raised = s.out.raised ++ [.queueOverflow]) ∧
        (v.qLen ≠ s.cfg.queueCap →
          t.dev.slots = v.slots.set v.qHead ⟨v.pData, v.pBits, byteCount v.pBits⟩ ∧
            t.dev.qHead = (v.qHead + 1) % s.cfg.queueCap ∧ t.dev.qLen = v.qLen + 1 ∧
            t.dev.overflow = v.overflow ∧ t.out.raised = s.out.raised)) ∧
      (v.modEn = true ∧ v.mDetect = true →
        t.dev.msData = v.mData ∧ t.dev.msBits = v.mBits ∧ t.dev.msCmd = cmd ∧ t.dev.msValid = true) ∧
      (¬ (v.modEn = true ∧ v.mDetect = true) →
        t.dev.msData = v.msData ∧ t.dev.msBits = v.msBits ∧ t.dev.msCmd = v.msCmd ∧ t.dev.msValid = v.msValid)

/-- Idempotent filtering: after the boundary of a periodic frame, stored or dropped, a second frame with the same
bytes leaves the FIFO, `overflow` and the filter memory as they are (40_sampler.md R160; 70_reset_and_hazards.md
R294). -/
def Obligations.RepeatedPeriodicFrameIsFiltered : Prop :=
  ∀ (s : State) (n : Nat), s.cfg.wf = true → Shape s.cfg s.dev → s.dev.synced = true →
    s.cfg.minFrameBits ≤ s.dev.pBits → s.cfg.minFrameBits ≤ n → byteAt s.dev.pData 0 ∈ s.cfg.periodicCmds →
    ∃ t u, exec .eof s = .next t ∧
      exec .eof { t with dev := { t.dev with pData := s.dev.pData, pBits := n } } = .next u ∧
      u.dev.slots = t.dev.slots ∧ u.dev.qHead = t.dev.qHead ∧ u.dev.qTail = t.dev.qTail ∧
      u.dev.qLen = t.dev.qLen ∧ u.dev.overflow = t.dev.overflow ∧ u.dev.filt = t.dev.filt

/-- DISC, whole: the write is abandoned and the line released; `connected` falls and `conn_changed` is set only if
it was up; with the clock low the assembly and `synced` go too (40_sampler.md R164; 42_writer.md R211). -/
def Obligations.DisconnectAbandonsWriteAndCutFrame : Prop :=
  ∀ s : State,
    exec .disc s = .next
      { s with
        dev :=
          { s.dev with
            connected := false, connChanged := s.dev.connChanged || s.dev.connected
            wrPending := false, wrActive := false, wrLast := false, wrSecond := false, driveLow := false
            synced := s.dev.synced && s.dev.clkQ
            pData := if s.dev.clkQ then s.dev.pData else List.replicate s.cfg.readSize 0x00#8
            pBits := if s.dev.clkQ then s.dev.pBits else 0
            mData := if s.dev.clkQ then s.dev.mData else List.replicate s.cfg.readSize 0x00#8
            mBits := if s.dev.clkQ then s.dev.mBits else 0
            mDetect := s.dev.mDetect && s.dev.clkQ }
        out :=
          { s.out with
            raised := if s.dev.connected then s.out.raised ++ [.busDisconnect] else s.out.raised } }

/-- ENQUEUE of the assembled frame: full, only `overflow` is set; with room, slot `q_head` alone is written, the head
advances and the length rises (41_fifo_checksum.md R182). -/
def Obligations.EnqueueStoresOrFlagsOverflow : Prop :=
  ∀ s : State, s.dev.qHead < s.dev.slots.length → ∃ t, exec .enqueue s = .next t ∧
    (s.dev.qLen = s.cfg.queueCap →
      t = { s with
            dev := { s.dev with overflow := true }
            out := { s.out with raised := s.out.raised ++ [.queueOverflow] } }) ∧
    (s.dev.qLen ≠ s.cfg.queueCap →
      t = { s with
            dev :=
              { s.dev with
                slots := t.dev.slots, qHead := (s.dev.qHead + 1) % s.cfg.queueCap, qLen := s.dev.qLen + 1 } } ∧
      t.dev.slots.length = s.dev.slots.length ∧
      t.dev.slots[s.dev.qHead]? = some (FrameSlot.mk s.dev.pData s.dev.pBits (byteCount s.dev.pBits)) ∧
      ∀ i, i ≠ s.dev.qHead → t.dev.slots[i]? = s.dev.slots[i]?)

/-! ### The FIFO and the checksum -/

/-- POP: the tail advances and the length falls, on an empty FIFO nothing (41_fifo_checksum.md R184). -/
def Obligations.PopRemovesTheFront : Prop :=
  ∀ s : State,
    exec .pop s = .next
      (if s.dev.qLen = 0 then s
      else
        { s with
          dev := { s.dev with qTail := (s.dev.qTail + 1) % s.cfg.queueCap, qLen := s.dev.qLen - 1 } })

/-- The FIFO is a list in capture order: ENQUEUE adds at the end unless full, POP removes the oldest
(20_memory.md R78; 10_state.md R34). -/
def Obligations.FifoKeepsCaptureOrder : Prop :=
  ∀ s : State, s.cfg.wf = true → Shape s.cfg s.dev → QueueOk s.cfg s.dev →
    (∃ t, exec .enqueue s = .next t ∧ QueueOk t.cfg t.dev ∧
      t.dev.liveFrames t.cfg =
        if s.dev.qLen = s.cfg.queueCap then s.dev.liveFrames s.cfg
        else s.dev.liveFrames s.cfg ++ [⟨s.dev.pData, s.dev.pBits, byteCount s.dev.pBits⟩]) ∧
    (∃ t, exec .pop s = .next t ∧ QueueOk t.cfg t.dev ∧
      t.dev.liveFrames t.cfg = (s.dev.liveFrames s.cfg).tail)

/-- The front frame is stable: no step but a POP or a reset changes what the FRONT registers and FRONT_CKOK show
(20_memory.md R82). -/
def Obligations.FrontFrameIsStable : Prop :=
  ∀ (s t : State) (x : Input) (rest : List Input), s.Good → 0 < s.dev.qLen → s.inputs = x :: rest →
    x ≠ .rst → x ≠ .host true 0x03#6 0x01#8 → step s = .next t →
    0 < t.dev.qLen ∧ t.dev.frontBits = s.dev.frontBits ∧ t.dev.frontBytes = s.dev.frontBytes ∧
      t.dev.frontCkOk = s.dev.frontCkOk ∧ ∀ i, t.dev.frontData t.cfg i = s.dev.frontData s.cfg i

/-- `CkOk`: at least three bytes, and the sum of byte 0 and bytes 2 to the one before the trailer, mod 256, is the
trailer (41_fifo_checksum.md R188). -/
def Obligations.ChecksumIsTheByteSumModulo256 : Prop :=
  ∀ (bytes : List Byte) (count : Nat),
    ckOk bytes count = true ↔
      3 ≤ count ∧
        ((byteAt bytes 0).toNat + (((bytes.take (count - 1)).drop 2).map BitVec.toNat).sum) % 256 =
          (byteAt bytes (count - 1)).toNat

/-- FILTCLR invalidates every filter slot and leaves its bytes (41_fifo_checksum.md R186). -/
def Obligations.FiltclrInvalidatesEverySlot : Prop :=
  ∀ s : State, ∃ t, exec .filtclr s = .next t ∧ t = { s with dev := { s.dev with filt := t.dev.filt } } ∧
    t.dev.filt.length = s.dev.filt.length ∧
    ∀ (k : Nat) (e : FilterSlot), s.dev.filt[k]? = some e → t.dev.filt[k]? = some (FilterSlot.mk false e.data)

/-! ### The HOST family -/

/-- HR STATUS returns the eight status bits and changes nothing (43_host_ops.md R222; 41_fifo_checksum.md R190). -/
def Obligations.StatusShowsItsEightBits : Prop :=
  ∀ s : State, ∃ b : Byte,
    exec .hrStatus s = .next { s with out := { s.out with rdata := some b } } ∧
      b.getLsbD 0 = decide (0 < s.dev.qLen) ∧ b.getLsbD 1 = s.dev.overflow ∧ b.getLsbD 2 = s.dev.connected ∧
      b.getLsbD 3 = s.dev.connChanged ∧ b.getLsbD 4 = !s.dev.wrPending ∧
      (s.dev.qLen = 0 → b.getLsbD 5 = false) ∧
      (∀ f, 0 < s.dev.qLen → s.dev.slots[s.dev.qTail]? = some f → b.getLsbD 5 = ckOk f.data f.bytes) ∧
      b.getLsbD 6 = s.dev.synced ∧ b.getLsbD 7 = s.dev.msValid

/-- The plain reads: CTRL, QLEN, WKEY, WPART, the snapshot's counts and command, its data window, and the
write-only addresses that read 0x00 (43_host_ops.md R220). -/
def Obligations.PlainReadsReturnTheirElements : Prop :=
  ∀ (s : State) (i : BitVec 4),
    let reads := fun (x : Instr) (b : Byte) => exec x s = .next { s with out := { s.out with rdata := some b } }
    (∃ b, reads .hrCtrl b ∧ b.getLsbD 0 = s.dev.vkpEn ∧ b.getLsbD 1 = s.dev.modEn ∧
      ∀ j, 2 ≤ j → b.getLsbD j = false) ∧
    reads .hrQlen (BitVec.ofNat 8 s.dev.qLen) ∧ reads .hrWkey s.dev.wkey ∧ reads .hrWpart s.dev.wpart ∧
    reads .hrMsBits (BitVec.ofNat 8 s.dev.msBits) ∧ reads .hrMsBytes (BitVec.ofNat 8 (byteCount s.dev.msBits)) ∧
    reads .hrMsCmd s.dev.msCmd ∧
    reads (.hrMsData i) (if i.toNat < s.cfg.readSize then byteAt s.dev.msData i.toNat else 0x00#8) ∧
    reads .hrFlagclrZero 0x00#8 ∧ reads .hrCmdZero 0x00#8

/-- The front window reads slot `q_tail`, and 0x00 when the FIFO is empty (41_fifo_checksum.md R185; 10_state.md
R48, R49, R55). -/
def Obligations.FrontWindowReadsTheFrontSlot : Prop :=
  ∀ (s : State) (i : BitVec 4),
    let reads := fun (x : Instr) (b : Byte) => exec x s = .next { s with out := { s.out with rdata := some b } }
    (s.dev.qLen = 0 → reads .hrFrontBits 0x00#8 ∧ reads .hrFrontBytes 0x00#8 ∧ reads (.hrFrontData i) 0x00#8) ∧
    (∀ f, 0 < s.dev.qLen → s.dev.slots[s.dev.qTail]? = some f →
      reads .hrFrontBits (BitVec.ofNat 8 f.bits) ∧ reads .hrFrontBytes (BitVec.ofNat 8 f.bytes) ∧
        reads (.hrFrontData i) (if i.toNat < s.cfg.readSize then byteAt f.data i.toNat else 0x00#8))

/-- A host read of any of the 64 addresses shows that address's value and changes nothing; the data byte of a read is
ignored (43_host_ops.md R220, R221; 20_memory.md R74). That a step takes one pending input and clears the outputs of
the step before is the model's (log 4, log 6). -/
def Obligations.EveryReadIsFreeOfSideEffects : Prop :=
  ∀ (s : State) (addr : BitVec 6) (w : Byte) (rest : List Input), s.cfg.wf = true →
    s.inputs = .host false addr w :: rest →
    step s = .next { s with inputs := rest, out := ⟨some (s.readRegister addr), []⟩ }

/-- HW FLAGCLR clears `overflow`, `conn_changed` and `ms_valid` by bits 1, 3 and 7 and nothing else
(43_host_ops.md R223). -/
def Obligations.FlagclrClearsExactlyTheMaskedFlags : Prop :=
  ∀ (m : Byte) (s : State),
    exec (.hwFlagclr m) s = .next
      { s with
        dev :=
          { s.dev with
            overflow := if m.getLsbD 1 then false else s.dev.overflow
            connChanged := if m.getLsbD 3 then false else s.dev.connChanged
            msValid := if m.getLsbD 7 then false else s.dev.msValid } }

/-- HW CTRL stores the two implemented bits; taking `vkp_en` from 1 to 0 abandons the pending write and releases
the line in the same step (43_host_ops.md R225; 42_writer.md R212). -/
def Obligations.CtrlWriteSetsEnablesAndAbandons : Prop :=
  ∀ (b : Byte) (s : State),
    let off := s.dev.vkpEn = true ∧ b.getLsbD 0 = false
    exec (.hwCtrl b) s = .next
      { s with
        dev :=
          { s.dev with
            vkpEn := b.getLsbD 0, modEn := b.getLsbD 1
            wrPending := if off then false else s.dev.wrPending
            wrActive := if off then false else s.dev.wrActive
            wrLast := if off then false else s.dev.wrLast
            wrSecond := if off then false else s.dev.wrSecond
            driveLow := if off then false else s.dev.driveLow } }

/-- HW WKEY and HW WPART only store, whatever the value, and their reads return what is stored: the check is
WRITE_KEY's (43_host_ops.md R228, R229). That a step takes one pending input and clears the outputs of the step before
is the model's (log 4, log 6). -/
def Obligations.KeyAndPartitionWritesOnlyStore : Prop :=
  ∀ (b : Byte) (s : State),
    exec (.hwWkey b) s = .next { s with dev := { s.dev with wkey := b } } ∧
    exec (.hwWpart b) s = .next { s with dev := { s.dev with wpart := b } } ∧
    exec .hrWkey s = .next { s with out := { s.out with rdata := some s.dev.wkey } } ∧
    exec .hrWpart s = .next { s with out := { s.out with rdata := some s.dev.wpart } } ∧
    ∀ rest : List Input, s.cfg.wf = true →
      (s.inputs = .host true 0x07#6 b :: rest →
        step s = .next { s with inputs := rest, out := ⟨none, []⟩, dev := { s.dev with wkey := b } }) ∧
      (s.inputs = .host true 0x08#6 b :: rest →
        step s = .next { s with inputs := rest, out := ⟨none, []⟩, dev := { s.dev with wpart := b } })

/-- Writes to read-only registers, reads of write-only ones and accesses to reserved addresses: a write changes
nothing, a read shows 0x00 and changes nothing (20_memory.md R84). -/
def Obligations.ReservedAndReadOnlyAccessesAreInert : Prop :=
  ∀ (s : State) (i : BitVec 4) (lo : BitVec 2) (b : Byte),
    (∀ x ∈ ignoredWriteRows i b, exec x s = .next s) ∧
    exec (.hostReserved0C0F true lo b) s = .next s ∧ exec (.hostReserved303F true i b) s = .next s ∧
    ∀ x ∈ [Instr.hostReserved0C0F false lo b, .hostReserved303F false i b, .hrFlagclrZero, .hrCmdZero],
      exec x s = .next { s with out := { s.out with rdata := some 0x00#8 } }

/-- What the host writes to CTRL, WKEY and WPART is what it reads there, for CTRL only the implemented bits
(10_state.md R45, R50, R51). -/
def Obligations.ReadAfterWriteOfHostRegisters : Prop :=
  ∀ (s : State) (b : Byte), s.cfg.wf = true →
    let after := fun (addr : BitVec 6) => s.runInputs [.host true addr b, .host false addr 0x00#8]
    (∃ t, after 0x02#6 = .next t ∧ t.out.rdata = some (b &&& 0x03#8)) ∧
    (∃ t, after 0x07#6 = .next t ∧ t.out.rdata = some b) ∧
    (∃ t, after 0x08#6 = .next t ∧ t.out.rdata = some b)

/-! ### The CMD and KEY families -/

/-- `HW CMD v` answers a next state, the one the command row of `v` answers (30_encoding.md R112; 43_host_ops.md
R230). -/
def Obligations.CommandWriteRunsItsCommandRow : Prop :=
  ∀ (v : Byte) (s : State), ∃ t, exec (.hwCmd v) s = .next t ∧ exec (decodeCmd v) s = .next t

/-- NOP and the reserved codes change nothing (43_host_ops.md R240, R241). -/
def Obligations.NopAndReservedCommandsAreInert : Prop :=
  ∀ (s : State) (code : Byte), exec .nop s = .next s ∧ exec (.cmdReserved code) s = .next s ∧
    (4 ≤ code.toNat → exec (.hwCmd code) s = .next s)

/-- WRITE_KEY is the row of the character in WKEY (30_encoding.md R113; 42_writer.md R202). -/
def Obligations.WriteKeyRunsTheRowOfItsCharacter : Prop :=
  ∀ s : State, ∃ t, exec .writeKey s = .next t ∧ exec (decodeKey s.dev.wkey) s = .next t

/-- WRITE_KEY of a request that meets the five conditions loads it: the pattern and the alarm flag of KEYMAP, and
for an alarm key ALARM_START in any frame, else the slot of the partition (42_writer.md R202). -/
def Obligations.AcceptedRequestIsLoaded : Prop :=
  ∀ (s : State) (pattern : Byte) (alarm : Bool) (e : KeySlot),
    s.dev.vkpEn = true → s.dev.connected = true → s.dev.wrPending = false →
    keymap s.cfg s.dev.wkey = some (pattern, alarm) →
    1 ≤ s.dev.wpart.toNat → s.dev.wpart.toNat ≤ s.cfg.maxPartitions →
    s.cfg.slots[s.dev.wpart.toNat - 1]? = some e →
    exec .writeKey s = .next
      { s with
        dev :=
          { s.dev with
            wrPattern := pattern, wrAlarm := alarm, wrAny := alarm
            wrStart := if alarm then s.cfg.alarmStart else e.start
            wrCmd := if alarm then 0x00#8 else e.cmd
            wrSecond := false, wrActive := false, wrLast := false, wrPending := true } }

/-- A request that fails any of the five conditions changes no state; only the trace marks it (42_writer.md R201). -/
def Obligations.RequestIsRejectedUnlessAllFiveHold : Prop :=
  ∀ s : State,
    (s.dev.vkpEn = false ∨ s.dev.connected = false ∨ s.dev.wrPending = true ∨
      keymap s.cfg s.dev.wkey = none ∨ s.dev.wpart.toNat < 1 ∨ s.cfg.maxPartitions < s.dev.wpart.toNat) →
    exec .writeKey s = .next { s with out := { s.out with raised := s.out.raised ++ [.invalidWrite] } }

/-- Each of the 22 slot keys loads its own pattern, not an alarm, at the slot of the partition; each row completes
in every accepting state (44_keys.md R300; 42_writer.md R202). The patterns are the configuration's. -/
def Obligations.SlotKeyRowsLoadTheirPattern : Prop :=
  ∀ (s : State) (lower : Bool) (e : KeySlot),
    s.dev.vkpEn = true → s.dev.connected = true → s.dev.wrPending = false →
    1 ≤ s.dev.wpart.toNat → s.dev.wpart.toNat ≤ s.cfg.maxPartitions →
    s.cfg.slots[s.dev.wpart.toNat - 1]? = some e →
    ∀ r ∈ slotKeyRows s.cfg.keyPatterns lower,
      exec r.1 s = .next
        { s with
          dev :=
            { s.dev with
              wrPattern := r.2, wrAlarm := false, wrAny := false, wrStart := e.start, wrCmd := e.cmd
              wrSecond := false, wrActive := false, wrLast := false, wrPending := true } }

/-- Each of the three alarm keys loads its own pattern for any frame at ALARM_START; the partition is tested and
not used (42_writer.md R201, R204). The patterns are the configuration's. -/
def Obligations.AlarmKeyRowsLoadTheirPattern : Prop :=
  ∀ (s : State) (lower : Bool),
    s.dev.vkpEn = true → s.dev.connected = true → s.dev.wrPending = false →
    1 ≤ s.dev.wpart.toNat → s.dev.wpart.toNat ≤ s.cfg.maxPartitions →
    ∀ r ∈ alarmKeyRows s.cfg.keyPatterns lower,
      exec r.1 s = .next
        { s with
          dev :=
            { s.dev with
              wrPattern := r.2, wrAlarm := true, wrAny := true, wrStart := s.cfg.alarmStart, wrCmd := 0x00#8
              wrSecond := false, wrActive := false, wrLast := false, wrPending := true } }

/-- `/` and any code that is no key are rejected in every state, by their rows and by WRITE_KEY with the code in
WKEY (44_keys.md R330, R331). -/
def Obligations.SlashAndUnknownCharactersAreRejected : Prop :=
  ∀ (s : State) (code : Byte),
    let rejected := { s with out := { s.out with raised := s.out.raised ++ [.invalidWrite] } }
    exec .keySlashRejected s = .next rejected ∧ exec (.keyUnknownRejected code) s = .next rejected ∧
    (∀ c, code = 0x2F#8 ∨ (Instr.keyUnknownRejected code).wf = true → keymap c code = none) ∧
    (s.dev.wkey = 0x2F#8 ∨ (Instr.keyUnknownRejected s.dev.wkey).wf = true → exec .writeKey s = .next rejected)

/-- A letter's two cases are one key (44_keys.md R300): the request they load is the same. -/
def Obligations.LetterCaseDoesNotMatter : Prop :=
  ∀ (c : Config) (upper : Byte), 0x41 ≤ upper.toNat → upper.toNat ≤ 0x5A →
    keymap c (upper + 0x20#8) = keymap c upper

/-! ### The writer on the wire -/

/-- What the block writes is what it reads back: in a window cycle the module sample of that low half is the
pattern bit AND the level the rest of the bus presents (42_writer.md R206, R214; 10_state.md R58). -/
def Obligations.WindowBitIsReadBack : Prop :=
  ∀ (s : State) (k : Nat) (d0 m : Bool) (ds : List Bool), s.cfg.wf = true →
    s.dev.clkSeen = true → s.dev.clkQ = true → s.dev.synced = true → s.dev.modEn = true →
    s.dev.wrPending = true → s.dev.vkpEn = true → s.dev.mBits < s.cfg.maxBits → k ≤ 7 →
    s.dev.pBits = s.dev.wrStart + k →
    (s.dev.wrActive = true ∨ (k = 0 ∧ s.dev.frameMatch = true)) →
    ds.length + 1 = s.cfg.tSample →
    ∃ t, s.runInputs (.tick false d0 :: (ds.map (.tick false) ++ [.tick false m])) = .next t ∧
      t.dev.driveLow = !s.dev.wrPattern.getLsbD (7 - k) ∧ t.dev.wrActive = true ∧
      t.dev.mBits = s.dev.mBits + 1 ∧
      t.dev.mData = appendBit s.dev.mData s.dev.mBits (m && s.dev.wrPattern.getLsbD (7 - k))

/-! ### Timing -/

/-- SAMPLE_P is taken in tick e + `T_SAMPLE` after a rising edge in tick e, on the level of that tick alone
(40_sampler.md R146; 70_reset_and_hazards.md R298). -/
def Obligations.PanelBitIsSampledAtTSample : Prop :=
  ∀ (s : State) (d0 last : Bool) (ds : List Bool), s.cfg.wf = true →
    s.dev.clkSeen = true → s.dev.clkQ = false → ds.length + 1 = s.cfg.tSample →
    ∃ t u, s.runInputs (.tick true d0 :: ds.map (.tick true)) = .next t ∧
      t.dev.pBits = s.dev.pBits ∧ t.dev.pData = s.dev.pData ∧
      t.runInputs [.tick true last] = .next u ∧
      (s.dev.synced = true ∧ s.dev.pBits < s.cfg.maxBits →
        u.dev.pBits = s.dev.pBits + 1 ∧ u.dev.pData = appendBit s.dev.pData s.dev.pBits last) ∧
      (¬ (s.dev.synced = true ∧ s.dev.pBits < s.cfg.maxBits) →
        u.dev.pBits = s.dev.pBits ∧ u.dev.pData = s.dev.pData)

/-- A sample whose half is too short is lost: if the next edge comes at or before tick e + `T_SAMPLE`, neither
stream moves (40_sampler.md R166). -/
def Obligations.ShortHalfLosesItsSample : Prop :=
  ∀ (s : State) (c d0 d1 : Bool) (ds : List Bool), s.cfg.wf = true →
    s.dev.clkSeen = true → s.dev.clkQ = !c → ds.length + 1 ≤ s.cfg.tSample →
    ∃ t, s.runInputs (.tick c d0 :: (ds.map (.tick c) ++ [.tick (!c) d1])) = .next t ∧
      t.dev.pBits = s.dev.pBits ∧ t.dev.pData = s.dev.pData ∧ t.dev.mBits = s.dev.mBits ∧
      t.dev.mData = s.dev.mData ∧ t.dev.sampArmed = true ∧ t.dev.sampCnt = 0

/-- EOF fires in tick r + `T_EOF` + 1 after a rising edge in tick r with the clock high, and not before
(40_sampler.md R148; 70_reset_and_hazards.md R298). -/
def Obligations.BoundaryFiresAfterTEof : Prop :=
  ∀ (s : State) (d0 d : Bool) (ds : List Bool), s.cfg.wf = true →
    s.dev.clkSeen = true → s.dev.clkQ = false → ds.length = s.cfg.tEof →
    ∃ t u, s.runInputs (.tick true d0 :: ds.map (.tick true)) = .next t ∧
      t.dev.highCnt = s.cfg.tEof ∧ t.dev.synced = s.dev.synced ∧ t.dev.slots = s.dev.slots ∧
      t.dev.qLen = s.dev.qLen ∧ t.dev.overflow = s.dev.overflow ∧ t.dev.filt = s.dev.filt ∧
      t.dev.msValid = s.dev.msValid ∧
      exec .eof { t with inputs := [], out := ⟨none, []⟩, dev := { t.dev with highCnt := s.cfg.tEof + 1 } } =
        .next u ∧
      t.runInputs [.tick true d] = .next { u with dev := { u.dev with idleCnt := s.cfg.tEof + 1 } }

/-- DISC fires in tick e + `T_DISC` + 1 after the last edge in tick e, not before; with no further edge the silence
timer then rests past `T_DISC`, so that DISC does not fire again and CONN_CHANGED, once cleared by the host, stays
clear (40_sampler.md R149; 60_exceptions.md R264). -/
def Obligations.DisconnectFiresOnceAfterTDisc : Prop :=
  ∀ (s : State) (c d0 d : Bool) (ds es : List Bool), s.cfg.wf = true →
    s.dev.clkSeen = true → s.dev.clkQ = !c → ds.length = s.cfg.tDisc →
    ∃ t u w, s.runInputs (.tick c d0 :: ds.map (.tick c)) = .next t ∧
      t.dev.connected = true ∧ t.dev.idleCnt = s.cfg.tDisc ∧
      t.runInputs [.tick c d] = .next u ∧
      u.dev.connected = false ∧ u.dev.connChanged = true ∧ u.dev.wrPending = false ∧ u.dev.driveLow = false ∧
      State.runInputs { u with dev := { u.dev with connChanged := false } } (es.map (.tick c)) = .next w ∧
      w.dev.connected = false ∧ w.dev.connChanged = false ∧
      u.dev.idleCnt = s.cfg.tDisc + 1 ∧ w.dev.idleCnt = s.cfg.tDisc + 1

/-! ### Invariants -/

/-- The reset state of every configuration in the spec satisfies the invariants of 10_state.md R59. -/
def Obligations.ResetMeetsTheInvariants : Prop :=
  ∀ c : Config, c.wf = true → Inv c (Device.reset c)

/-- Every step keeps the invariants of 10_state.md R59, with the few more that make them inductive: the FIFO
indices and its live frames, the assembly's zeros, the writer's progress and the line, the timers. -/
def Obligations.EveryStepKeepsTheInvariants : Prop :=
  ∀ s t : State, Inv s.cfg s.dev → step s = .next t → Inv t.cfg t.dev

/-- Under the invariants every counter fits the width 10_state.md R20 gives it, so that none ever wraps
(41_fifo_checksum.md R191). -/
def Obligations.CountersFitTheirWidths : Prop :=
  ∀ (c : Config) (v : Device), c.wf = true → Inv c v → Widths c v

/-- No two of SAMPLE, EOF and DISC are due in the same tick, whatever the clock level: SAMPLE_P or SAMPLE_M when the
sample timer is about to reach `T_SAMPLE`, EOF when the clock is high and `high_cnt` rests at `T_EOF`, DISC when
`idle_cnt` rests at `T_DISC` (40_sampler.md R145, R147; 00_scope.md R5; 60_exceptions.md R268). -/
def Obligations.NoTwoTimersFireTogether : Prop :=
  ∀ (c : Config) (v : Device), c.wf = true → Inv c v →
    let sample := v.sampArmed = true ∧ v.sampCnt + 1 = c.tSample
    let boundary := v.clkQ = true ∧ v.highCnt = c.tEof
    let silence := v.idleCnt = c.tDisc
    ¬ (sample ∧ boundary) ∧ ¬ (sample ∧ silence) ∧ ¬ (boundary ∧ silence)

/-! ### Ownership -/

/-- Single writers: a tick never writes `q_tail`, CTRL's enables, WKEY, WPART or the translation a request holds, never
lowers `q_len`, `overflow`, `conn_changed` or `ms_valid`, never invalidates a filter slot, and never makes a request
pending (20_memory.md R83; 10_state.md R32, R34, R38). -/
def Obligations.TicksNeverWriteHostElements : Prop :=
  ∀ (s t : State) (c d : Bool) (rest : List Input), s.inputs = .tick c d :: rest → step s = .next t →
    t.dev.qTail = s.dev.qTail ∧ t.dev.vkpEn = s.dev.vkpEn ∧ t.dev.modEn = s.dev.modEn ∧
      t.dev.wkey = s.dev.wkey ∧ t.dev.wpart = s.dev.wpart ∧
      t.dev.wrPattern = s.dev.wrPattern ∧ t.dev.wrStart = s.dev.wrStart ∧ t.dev.wrCmd = s.dev.wrCmd ∧
      t.dev.wrAny = s.dev.wrAny ∧ t.dev.wrAlarm = s.dev.wrAlarm ∧
      s.dev.qLen ≤ t.dev.qLen ∧
      (∀ (k : Nat) (e : FilterSlot), s.dev.filt[k]? = some e → e.valid = true →
        ∃ e', t.dev.filt[k]? = some e' ∧ e'.valid = true) ∧
      (s.dev.overflow = true → t.dev.overflow = true) ∧
      (s.dev.connChanged = true → t.dev.connChanged = true) ∧
      (s.dev.msValid = true → t.dev.msValid = true) ∧
      (t.dev.wrPending = true → s.dev.wrPending = true)

/-- Single writers: a host access never touches the edge detector, the timers, the streams, `synced`, `connected`,
the FIFO's slots and head, the snapshot's contents or a filter slot's bytes, never makes a filter slot valid, never
lengthens the FIFO, raises a sticky flag or advances the writer, and never pulls the line low (20_memory.md R83;
10_state.md R32, R34, R39). -/
def Obligations.HostAccessesNeverWriteBusElements : Prop :=
  ∀ (s t : State) (we : Bool) (addr : BitVec 6) (w : Byte) (rest : List Input),
    s.inputs = .host we addr w :: rest → step s = .next t →
    t.dev.clkSeen = s.dev.clkSeen ∧ t.dev.clkQ = s.dev.clkQ ∧ t.dev.sampArmed = s.dev.sampArmed ∧
      t.dev.sampCnt = s.dev.sampCnt ∧ t.dev.highCnt = s.dev.highCnt ∧ t.dev.idleCnt = s.dev.idleCnt ∧
      t.dev.synced = s.dev.synced ∧ t.dev.pData = s.dev.pData ∧ t.dev.pBits = s.dev.pBits ∧
      t.dev.mData = s.dev.mData ∧ t.dev.mBits = s.dev.mBits ∧ t.dev.mDetect = s.dev.mDetect ∧
      t.dev.slots = s.dev.slots ∧ t.dev.qHead = s.dev.qHead ∧ t.dev.connected = s.dev.connected ∧
      t.dev.msData = s.dev.msData ∧ t.dev.msBits = s.dev.msBits ∧ t.dev.msCmd = s.dev.msCmd ∧
      t.dev.filt.map FilterSlot.data = s.dev.filt.map FilterSlot.data ∧
      (∀ (k : Nat) (e : FilterSlot), t.dev.filt[k]? = some e → e.valid = true → s.dev.filt[k]? = some e) ∧
      t.dev.qLen ≤ s.dev.qLen ∧
      (t.dev.wrActive = true → s.dev.wrActive = true) ∧ (t.dev.wrLast = true → s.dev.wrLast = true) ∧
      (t.dev.wrSecond = true → s.dev.wrSecond = true) ∧
      (t.dev.overflow = true → s.dev.overflow = true) ∧
      (t.dev.connChanged = true → s.dev.connChanged = true) ∧
      (t.dev.msValid = true → s.dev.msValid = true) ∧
      (t.dev.driveLow = true → s.dev.driveLow = true)
end

