-- ==== Sys2Proof/Laws/State.lean ====
section
/-! SUPPORT. One lemma per field of `State` per update of it, so that no later proof unfolds a record update. -/

namespace Sys2Proof.Machine

@[simp] theorem State.withDev_cfg (s : State) (v : Device) : (s.withDev v).cfg = s.cfg := rfl
@[simp] theorem State.withDev_dev (s : State) (v : Device) : (s.withDev v).dev = v := rfl
@[simp] theorem State.withDev_inputs (s : State) (v : Device) : (s.withDev v).inputs = s.inputs := rfl
@[simp] theorem State.withDev_out (s : State) (v : Device) : (s.withDev v).out = s.out := rfl

@[simp] theorem State.raise_cfg (s : State) (e : Condition) : (s.raise e).cfg = s.cfg := rfl
@[simp] theorem State.raise_dev (s : State) (e : Condition) : (s.raise e).dev = s.dev := rfl
@[simp] theorem State.raise_inputs (s : State) (e : Condition) : (s.raise e).inputs = s.inputs := rfl
@[simp] theorem State.raise_out (s : State) (e : Condition) : (s.raise e).out = { s.out with raised := s.out.raised ++ [e] } := rfl

@[simp] theorem State.answer_cfg (s : State) (b : Byte) : (s.answer b).cfg = s.cfg := rfl
@[simp] theorem State.answer_dev (s : State) (b : Byte) : (s.answer b).dev = s.dev := rfl
@[simp] theorem State.answer_inputs (s : State) (b : Byte) : (s.answer b).inputs = s.inputs := rfl
@[simp] theorem State.answer_out (s : State) (b : Byte) : (s.answer b).out = { s.out with rdata := some b } := rfl

@[simp] theorem State.begin_cfg (s : State) (l : List Input) : (s.begin l).cfg = s.cfg := rfl
@[simp] theorem State.begin_dev (s : State) (l : List Input) : (s.begin l).dev = s.dev := rfl
@[simp] theorem State.begin_inputs (s : State) (l : List Input) : (s.begin l).inputs = l := rfl
@[simp] theorem State.begin_out (s : State) (l : List Input) : (s.begin l).out = Output.none := rfl

@[simp] theorem State.pushInput_cfg (s : State) (x : Input) : (s.pushInput x).cfg = s.cfg := rfl
@[simp] theorem State.pushInput_dev (s : State) (x : Input) : (s.pushInput x).dev = s.dev := rfl
@[simp] theorem State.pushInput_inputs (s : State) (x : Input) : (s.pushInput x).inputs = x :: s.inputs := rfl
@[simp] theorem State.pushInput_out (s : State) (x : Input) : (s.pushInput x).out = s.out := rfl

@[simp] theorem State.resetDevice_cfg (s : State) : (s.resetDevice).cfg = s.cfg := rfl
@[simp] theorem State.resetDevice_dev (s : State) : (s.resetDevice).dev = Device.reset s.cfg := rfl
@[simp] theorem State.resetDevice_inputs (s : State) : (s.resetDevice).inputs = s.inputs := rfl
@[simp] theorem State.resetDevice_out (s : State) : (s.resetDevice).out = s.out := rfl

@[simp] theorem State.latchClock_cfg (s : State) (c : Bool) : (s.latchClock c).cfg = s.cfg := rfl
@[simp] theorem State.latchClock_dev (s : State) (c : Bool) : (s.latchClock c).dev = s.dev.latchClock c := rfl
@[simp] theorem State.latchClock_inputs (s : State) (c : Bool) : (s.latchClock c).inputs = s.inputs := rfl
@[simp] theorem State.latchClock_out (s : State) (c : Bool) : (s.latchClock c).out = s.out := rfl

@[simp] theorem State.ignoreWrite_cfg (s : State) (v : Byte) : (s.ignoreWrite v).cfg = s.cfg := rfl
@[simp] theorem State.ignoreWrite_dev (s : State) (v : Byte) : (s.ignoreWrite v).dev = s.dev := rfl
@[simp] theorem State.ignoreWrite_inputs (s : State) (v : Byte) : (s.ignoreWrite v).inputs = s.inputs := rfl
@[simp] theorem State.ignoreWrite_out (s : State) (v : Byte) : (s.ignoreWrite v).out = s.out := rfl

@[simp] theorem State.rejectKey_cfg (s : State) : (s.rejectKey).cfg = s.cfg := rfl
@[simp] theorem State.rejectKey_dev (s : State) : (s.rejectKey).dev = s.dev := rfl
@[simp] theorem State.rejectKey_inputs (s : State) : (s.rejectKey).inputs = s.inputs := rfl
@[simp] theorem State.rejectKey_out (s : State) : (s.rejectKey).out = { s.out with raised := s.out.raised ++ [.invalidWrite] } := rfl

/-- Replacing the block's state twice leaves the last. -/
@[simp] theorem State.withDev_withDev (s : State) (v w : Device) : (s.withDev v).withDev w = s.withDev w := rfl

/-- Putting the block's own state back changes nothing. -/
@[simp] theorem State.withDev_self (s : State) : s.withDev s.dev = s := rfl

/-- Two states with the same four fields are equal. -/
theorem State.ext_fields {s t : State} (hc : s.cfg = t.cfg) (hd : s.dev = t.dev) (hi : s.inputs = t.inputs)
    (ho : s.out = t.out) : s = t := by
  cases s; cases t; simp_all

end Sys2Proof.Machine
end

