-- ==== Sys2Proof/Laws/Ops.lean ====
section
/-! SUPPORT. For each shared operation, once, everything it can do. -/

namespace Sys2Proof.Machine

/-! ### Operations on the machine leave the parameters and the pending inputs alone -/

@[simp] theorem State.enqueue_cfg (s : State) (data : List Byte) (n : Nat) : (s.enqueue data n).cfg = s.cfg := by
  unfold State.enqueue; split <;> rfl

@[simp] theorem State.enqueue_inputs (s : State) (data : List Byte) (n : Nat) :
    (s.enqueue data n).inputs = s.inputs := by
  unfold State.enqueue; split <;> rfl

@[simp] theorem State.deliverFrame_cfg (s : State) : s.deliverFrame.cfg = s.cfg := by
  simp only [State.deliverFrame, State.withDev_cfg]; split <;> simp

@[simp] theorem State.deliverFrame_inputs (s : State) : s.deliverFrame.inputs = s.inputs := by
  simp only [State.deliverFrame, State.withDev_inputs]; split <;> simp

@[simp] theorem State.eof_cfg (s : State) : s.eof.cfg = s.cfg := by
  simp only [State.eof, State.withDev_cfg]; split
  · simp
  · split <;> simp

@[simp] theorem State.eof_inputs (s : State) : s.eof.inputs = s.inputs := by
  simp only [State.eof, State.withDev_inputs]; split
  · simp
  · split <;> simp

@[simp] theorem State.highTimer_cfg (s : State) : s.highTimer.cfg = s.cfg := by
  simp only [State.highTimer]; split
  · split <;> simp
  · rfl

@[simp] theorem State.highTimer_inputs (s : State) : s.highTimer.inputs = s.inputs := by
  simp only [State.highTimer]; split
  · split <;> simp
  · rfl

@[simp] theorem State.dropConnection_cfg (s : State) : s.dropConnection.cfg = s.cfg := by
  unfold State.dropConnection; split <;> rfl

@[simp] theorem State.dropConnection_inputs (s : State) : s.dropConnection.inputs = s.inputs := by
  unfold State.dropConnection; split <;> rfl

@[simp] theorem State.disc_cfg (s : State) : s.disc.cfg = s.cfg := by simp [State.disc]

@[simp] theorem State.disc_inputs (s : State) : s.disc.inputs = s.inputs := by simp [State.disc]

@[simp] theorem State.idleTimer_cfg (s : State) : s.idleTimer.cfg = s.cfg := by
  simp only [State.idleTimer]; split
  · split <;> simp
  · rfl

@[simp] theorem State.idleTimer_inputs (s : State) : s.idleTimer.inputs = s.inputs := by
  simp only [State.idleTimer]; split
  · split <;> simp
  · rfl

@[simp] theorem State.tickHoldLow_cfg (s : State) (l : Bool) : (s.tickHoldLow l).cfg = s.cfg := by
  simp [State.tickHoldLow]

@[simp] theorem State.tickHoldLow_inputs (s : State) (l : Bool) : (s.tickHoldLow l).inputs = s.inputs := by
  simp [State.tickHoldLow]

@[simp] theorem State.tickHoldHigh_cfg (s : State) (l : Bool) : (s.tickHoldHigh l).cfg = s.cfg := by
  simp [State.tickHoldHigh]

@[simp] theorem State.tickHoldHigh_inputs (s : State) (l : Bool) : (s.tickHoldHigh l).inputs = s.inputs := by
  simp [State.tickHoldHigh]

@[simp] theorem State.requestKey_cfg (s : State) (k : Key) : (s.requestKey k).cfg = s.cfg := by
  unfold State.requestKey; split <;> rfl

@[simp] theorem State.requestKey_inputs (s : State) (k : Key) : (s.requestKey k).inputs = s.inputs := by
  unfold State.requestKey; split <;> rfl

@[simp] theorem State.writeKey_cfg (s : State) : s.writeKey.cfg = s.cfg := by
  unfold State.writeKey; split <;> simp

@[simp] theorem State.writeKey_inputs (s : State) : s.writeKey.inputs = s.inputs := by
  unfold State.writeKey; split <;> simp

@[simp] theorem State.reservedAccess_cfg (s : State) (we : Bool) (v : Byte) :
    (s.reservedAccess we v).cfg = s.cfg := by
  cases we <;> rfl

@[simp] theorem State.reservedAccess_inputs (s : State) (we : Bool) (v : Byte) :
    (s.reservedAccess we v).inputs = s.inputs := by
  cases we <;> rfl

/-! ### `Command(v)`, by its five cases -/

theorem State.command_nop (s : State) : s.command 0x00#8 = s := rfl

theorem State.command_pop (s : State) : s.command 0x01#8 = s.withDev (s.dev.pop s.cfg) := rfl

theorem State.command_writeKey (s : State) : s.command 0x02#8 = s.writeKey := rfl

theorem State.command_filtclr (s : State) : s.command 0x03#8 = s.withDev s.dev.filtclr := rfl

/-- A code from 4 on does nothing (43_host_ops.md R241). -/
theorem State.command_reserved (s : State) (v : Byte) (h : 4 ≤ v.toNat) : s.command v = s := by
  unfold State.command
  split <;> first | rfl | omega

/-- Everything `Command(v)` can do (43_host_ops.md R230). -/
theorem State.command_cases (s : State) (v : Byte) :
    (v = 0x00#8 ∧ s.command v = s) ∨ (v = 0x01#8 ∧ s.command v = s.withDev (s.dev.pop s.cfg)) ∨
      (v = 0x02#8 ∧ s.command v = s.writeKey) ∨ (v = 0x03#8 ∧ s.command v = s.withDev s.dev.filtclr) ∨
      (4 ≤ v.toNat ∧ s.command v = s) := by
  by_cases h : 4 ≤ v.toNat
  · exact .inr (.inr (.inr (.inr ⟨h, s.command_reserved v h⟩)))
  · have hv : v = 0x00#8 ∨ v = 0x01#8 ∨ v = 0x02#8 ∨ v = 0x03#8 := by bv_omega
    rcases hv with rfl | rfl | rfl | rfl <;> simp [State.command]

@[simp] theorem State.command_cfg (s : State) (v : Byte) : (s.command v).cfg = s.cfg := by
  rcases s.command_cases v with ⟨-, h⟩ | ⟨-, h⟩ | ⟨-, h⟩ | ⟨-, h⟩ | ⟨-, h⟩ <;> simp [h]

@[simp] theorem State.command_inputs (s : State) (v : Byte) : (s.command v).inputs = s.inputs := by
  rcases s.command_cases v with ⟨-, h⟩ | ⟨-, h⟩ | ⟨-, h⟩ | ⟨-, h⟩ | ⟨-, h⟩ <;> simp [h]

/-! ### What each operation answers, by its cases -/

/-- ENQUEUE: full, or one slot written (41_fifo_checksum.md R182). -/
theorem State.enqueue_cases (s : State) (data : List Byte) (n : Nat) :
    (s.dev.qLen = s.cfg.queueCap ∧
      s.enqueue data n = (s.withDev { s.dev with overflow := true }).raise .queueOverflow) ∨
    (s.dev.qLen ≠ s.cfg.queueCap ∧ s.enqueue data n = s.withDev (s.dev.pushFrame s.cfg data n)) := by
  unfold State.enqueue
  split
  · exact .inl ⟨‹_›, rfl⟩
  · exact .inr ⟨‹_›, rfl⟩

/-- WriterEvaluate: nothing, a window opened at its start, or the next bit of an open window (42_writer.md R206). -/
theorem Device.writerEvaluate_cases (v : Device) :
    v.writerEvaluate = v ∨
    (v.wrPending = true ∧ v.vkpEn = true ∧ v.synced = true ∧ v.wrActive = false ∧ v.frameMatch = true ∧
      v.pBits = v.wrStart ∧ v.writerEvaluate = Device.presentBit { v with wrActive := true } 0) ∨
    (v.wrPending = true ∧ v.vkpEn = true ∧ v.synced = true ∧ v.wrActive = true ∧ v.wrStart ≤ v.pBits ∧
      v.pBits ≤ v.wrStart + 7 ∧ v.writerEvaluate = v.presentBit (v.pBits - v.wrStart)) := by
  unfold Device.writerEvaluate
  split
  · exact .inl rfl
  · rename_i h
    simp only [Bool.or_eq_true, Bool.not_eq_true', not_or, Bool.not_eq_false] at h
    obtain ⟨⟨hp, hv⟩, hs⟩ := h
    split
    · rename_i ha
      simp only [Bool.not_eq_true'] at ha
      split
      · rename_i hm
        simp only [Bool.and_eq_true, decide_eq_true_eq] at hm
        exact .inr (.inl ⟨hp, hv, hs, ha, hm.1, hm.2, rfl⟩)
      · exact .inl rfl
    · rename_i ha
      simp only [Bool.not_eq_true', Bool.not_eq_false] at ha
      split
      · rename_i hk
        exact .inr (.inr ⟨hp, hv, hs, ha, hk.1, hk.2, rfl⟩)
      · exact .inl rfl

/-- SAMPLE_P: one bit in, or nothing (40_sampler.md R150, R152). -/
theorem Device.sampleP_cases (c : Config) (v : Device) (l : Bool) :
    (v.synced = true ∧ v.pBits < c.maxBits ∧
      v.sampleP c l = { v with pData := appendBit v.pData v.pBits l, pBits := v.pBits + 1 }) ∨
    ((v.synced = false ∨ c.maxBits ≤ v.pBits) ∧ v.sampleP c l = v) := by
  unfold Device.sampleP
  split
  · rename_i h
    simp only [Bool.and_eq_true, decide_eq_true_eq] at h
    exact .inl ⟨h.1, h.2, rfl⟩
  · rename_i h
    simp only [Bool.and_eq_true, decide_eq_true_eq, not_and_or, Bool.not_eq_true, Nat.not_lt] at h
    exact .inr ⟨h, rfl⟩

/-- SAMPLE_M: one bit in, only the detector, or nothing (40_sampler.md R154, R152). -/
theorem Device.sampleM_cases (c : Config) (v : Device) (l : Bool) :
    (v.synced = true ∧ v.modEn = true ∧ v.mBits < c.maxBits ∧
      v.sampleM c l =
        { v with mData := appendBit v.mData v.mBits l, mBits := v.mBits + 1, mDetect := v.mDetect || !l }) ∨
    (v.synced = true ∧ v.modEn = true ∧ c.maxBits ≤ v.mBits ∧
      v.sampleM c l = { v with mDetect := v.mDetect || !l }) ∨
    ((v.synced = false ∨ v.modEn = false) ∧ v.sampleM c l = v) := by
  unfold Device.sampleM Device.moduleBit
  split
  · rename_i h
    simp only [Bool.and_eq_true] at h
    split
    · exact .inl ⟨h.1, h.2, ‹_›, rfl⟩
    · exact .inr (.inl ⟨h.1, h.2, by omega, rfl⟩)
  · rename_i h
    simp only [Bool.and_eq_true, not_and_or, Bool.not_eq_true] at h
    exact .inr (.inr ⟨h, rfl⟩)

/-- SampleTimer with SAMPLE_P in TICK_HOLD_HIGH: idle, counting, or firing (40_sampler.md R146, R147). -/
theorem Device.holdSampleP_cases (c : Config) (v : Device) (l : Bool) :
    (v.sampArmed = false ∧ v.holdSampleP c l = v) ∨
    (v.sampArmed = true ∧ v.sampCnt + 1 ≠ c.tSample ∧ v.holdSampleP c l = { v with sampCnt := v.sampCnt + 1 }) ∨
    (v.sampArmed = true ∧ v.sampCnt + 1 = c.tSample ∧
      v.holdSampleP c l = Device.sampleP c { v with sampCnt := v.sampCnt + 1, sampArmed := false } l) := by
  rcases ha : v.sampArmed
  · exact .inl ⟨rfl, by simp [Device.holdSampleP, Device.sampleDue, Device.sampleTimer, ha]⟩
  · by_cases h : v.sampCnt + 1 = c.tSample
    · exact .inr (.inr ⟨rfl, h, by simp [Device.holdSampleP, Device.sampleDue, Device.sampleTimer, ha, h]⟩)
    · refine .inr (.inl ⟨rfl, h, ?_⟩)
      simp [Device.holdSampleP, Device.sampleDue, Device.sampleTimer, ha, h]

/-- SampleTimer with SAMPLE_M in TICK_HOLD_LOW: idle, counting, or firing (40_sampler.md R145, R146). -/
theorem Device.holdSampleM_cases (c : Config) (v : Device) (l : Bool) :
    (v.sampArmed = false ∧ v.holdSampleM c l = v) ∨
    (v.sampArmed = true ∧ v.sampCnt + 1 ≠ c.tSample ∧ v.holdSampleM c l = { v with sampCnt := v.sampCnt + 1 }) ∨
    (v.sampArmed = true ∧ v.sampCnt + 1 = c.tSample ∧
      v.holdSampleM c l = Device.sampleM c { v with sampCnt := v.sampCnt + 1, sampArmed := false } l) := by
  rcases ha : v.sampArmed
  · exact .inl ⟨rfl, by simp [Device.holdSampleM, Device.sampleDue, Device.sampleTimer, ha]⟩
  · by_cases h : v.sampCnt + 1 = c.tSample
    · exact .inr (.inr ⟨rfl, h, by simp [Device.holdSampleM, Device.sampleDue, Device.sampleTimer, ha, h]⟩)
    · refine .inr (.inl ⟨rfl, h, ?_⟩)
      simp [Device.holdSampleM, Device.sampleDue, Device.sampleTimer, ha, h]

/-- HighTimer: saturated, counting, or the boundary (40_sampler.md R148). -/
theorem State.highTimer_cases (s : State) :
    (s.cfg.tEof < s.dev.highCnt ∧ s.highTimer = s) ∨
    (s.dev.highCnt < s.cfg.tEof ∧ s.highTimer = s.withDev { s.dev with highCnt := s.dev.highCnt + 1 }) ∨
    (s.dev.highCnt = s.cfg.tEof ∧
      s.highTimer = (s.withDev { s.dev with highCnt := s.dev.highCnt + 1 }).eof) := by
  rcases Nat.lt_trichotomy s.dev.highCnt s.cfg.tEof with h | h | h
  · refine .inr (.inl ⟨h, ?_⟩)
    simp only [State.highTimer, Nat.le_of_lt h, if_true]
    rw [if_neg (by simp; omega)]
  · exact .inr (.inr ⟨h, by simp [State.highTimer, h]⟩)
  · exact .inl ⟨h, by simp [State.highTimer, Nat.not_le.mpr h]⟩

/-- IdleTimer: saturated, counting, or the silence event (40_sampler.md R149). -/
theorem State.idleTimer_cases (s : State) :
    (s.cfg.tDisc < s.dev.idleCnt ∧ s.idleTimer = s) ∨
    (s.dev.idleCnt < s.cfg.tDisc ∧ s.idleTimer = s.withDev { s.dev with idleCnt := s.dev.idleCnt + 1 }) ∨
    (s.dev.idleCnt = s.cfg.tDisc ∧
      s.idleTimer = (s.withDev { s.dev with idleCnt := s.dev.idleCnt + 1 }).disc) := by
  rcases Nat.lt_trichotomy s.dev.idleCnt s.cfg.tDisc with h | h | h
  · refine .inr (.inl ⟨h, ?_⟩)
    simp only [State.idleTimer, Nat.le_of_lt h, if_true]
    rw [if_neg (by simp; omega)]
  · exact .inr (.inr ⟨h, by simp [State.idleTimer, h]⟩)
  · exact .inl ⟨h, by simp [State.idleTimer, Nat.not_le.mpr h]⟩

/-- EOF's three arms (40_sampler.md R158). -/
theorem State.eof_cases (s : State) :
    (s.dev.synced = false ∧
      s.eof = ((s.withDev (Device.endFrame s.cfg { s.dev with synced := true })).raise .startupSuppressed)) ∨
    (s.dev.synced = true ∧ s.dev.pBits < s.cfg.minFrameBits ∧
      s.eof = (s.withDev (s.dev.endFrame s.cfg)).raise (.shortFrame s.dev.pBits)) ∨
    (s.dev.synced = true ∧ s.cfg.minFrameBits ≤ s.dev.pBits ∧
      s.eof = s.deliverFrame.withDev (s.deliverFrame.dev.endFrame s.cfg)) := by
  rcases hs : s.dev.synced
  · exact .inl ⟨rfl, by simp [State.eof, hs]; rfl⟩
  · by_cases h : s.dev.pBits < s.cfg.minFrameBits
    · exact .inr (.inl ⟨rfl, h, by simp [State.eof, hs, h]; rfl⟩)
    · exact .inr (.inr ⟨rfl, by omega, by simp [State.eof, hs, h]⟩)

/-- DISC: what its flags and its clearings leave (40_sampler.md R164). -/
theorem State.disc_dev (s : State) :
    s.disc.dev = Device.silence s.cfg
      { s.dev with connected := false, connChanged := s.dev.connChanged || s.dev.connected } := by
  rcases hc : s.dev.connected <;> simp [State.disc, State.dropConnection, hc]
  cases hd : s.dev
  simp_all

/-- WRITE_KEY of one key: accepted, or rejected with nothing changed but the trace (42_writer.md R201, R202). -/
theorem State.requestKey_cases (s : State) (k : Key) :
    (s.dev.acceptsKey s.cfg = true ∧ s.requestKey k = s.withDev (s.dev.loadKey s.cfg k)) ∨
    (s.dev.acceptsKey s.cfg = false ∧ s.requestKey k = s.rejectKey) := by
  unfold State.requestKey
  split
  · exact .inl ⟨‹_›, rfl⟩
  · rename_i h
    exact .inr ⟨by simpa using h, rfl⟩

/-! ### The writer and the edges -/

/-- FrameMatch: any frame, or a complete command byte equal to the request's (42_writer.md R205). -/
theorem Device.frameMatch_iff (v : Device) :
    v.frameMatch = true ↔ v.wrAny = true ∨ (8 ≤ v.pBits ∧ byteAt v.pData 0 = v.wrCmd) := by
  unfold Device.frameMatch Device.commandByte
  simp only [Bool.or_eq_true, Bool.and_eq_true, decide_eq_true_eq]

/-- WriterEvaluate writes `wr_active`, `wr_last` and `drive_low`, nothing else (42_writer.md R206). -/
theorem Device.writerEvaluate_frame (v : Device) :
    ∃ a l d, v.writerEvaluate = { v with wrActive := a, wrLast := l, driveLow := d } := by
  rcases v.writerEvaluate_cases with h | ⟨-, -, -, -, -, -, h⟩ | ⟨-, -, -, -, -, -, h⟩ <;> exact ⟨_, _, _, h⟩

/-- WriteComplete: the first of an alarm key's two writes, or the end of the request (42_writer.md R208, R209). -/
theorem Device.writeComplete_cases (v : Device) :
    (v.wrAlarm = true ∧ v.wrSecond = false ∧
      v.writeComplete = { v with wrLast := false, wrActive := false, wrSecond := true }) ∨
    ((v.wrAlarm = false ∨ v.wrSecond = true) ∧
      v.writeComplete = { v with wrLast := false, wrActive := false, wrPending := false, wrSecond := false }) := by
  unfold Device.writeComplete
  rcases ha : v.wrAlarm <;> rcases hs : v.wrSecond <;> simp

/-- EDGE_RISE: EdgeCommon with the release, and WriteComplete if the last bit was presented (40_sampler.md R143). -/
theorem Device.edgeRise_cases (v : Device) :
    (v.wrLast = false ∧ v.edgeRise = v.edgeCommon.risingRelease) ∨
    (v.wrLast = true ∧ v.edgeRise = v.edgeCommon.risingRelease.writeComplete) := by
  rcases h : v.wrLast
  · exact .inl ⟨rfl, if_neg (by show ¬ v.wrLast = true; simp [h])⟩
  · exact .inr ⟨rfl, if_pos h⟩

/-! ### Bits, filter, snapshot -/

@[simp] theorem appendBit_length (data : List Byte) (n : Nat) (b : Bool) : (appendBit data n b).length = data.length := by
  simp [appendBit]

/-- A byte read past the array, and any byte of a cleared array, is 0x00. -/
@[simp] theorem byteAt_zeroBytes (c : Config) (i : Nat) : byteAt (zeroBytes c) i = 0#8 := by
  unfold byteAt zeroBytes List.getD
  rcases h : (List.replicate c.readSize 0#8)[i]? with _ | x
  · rfl
  · rw [(List.mem_replicate.mp (List.mem_of_getElem? h)).2]; rfl

/-- The filter slot of a periodic command is where the list names it (40_sampler.md R160). -/
theorem filterIndex_some {c : Config} {cmd : Byte} {k : Nat} (h : filterIndex c cmd = some k) :
    c.periodicCmds[k]? = some cmd := by
  unfold filterIndex at h
  obtain ⟨hk, h1, -⟩ := List.findIdx?_eq_some_iff_getElem.mp h
  simp only [beq_iff_eq] at h1
  rw [List.getElem?_eq_getElem hk, h1]

/-- A command that is not periodic has no filter slot. -/
theorem filterIndex_none {c : Config} {cmd : Byte} (h : filterIndex c cmd = none) : cmd ∉ c.periodicCmds := by
  unfold filterIndex at h
  intro hm
  have := List.findIdx?_eq_none_iff.mp h cmd hm
  simp at this

/-- RedundancyFilter's memory: unchanged, or one slot written with the panel bytes (40_sampler.md R160). -/
theorem Device.filterUpdate_cases (c : Config) (v : Device) :
    ((filterIndex c v.commandByte = none ∨ v.filterSkips c = true) ∧ v.filterUpdate c = v) ∨
    (∃ k, filterIndex c v.commandByte = some k ∧ v.filterSkips c = false ∧
      v.filterUpdate c = { v with filt := v.filt.set k ⟨true, v.pData⟩ }) := by
  unfold Device.filterUpdate
  rcases hk : filterIndex c v.commandByte with _ | k
  · exact .inl ⟨.inl rfl, rfl⟩
  · rcases hs : v.filterSkips c
    · exact .inr ⟨k, rfl, rfl, rfl⟩
    · exact .inl ⟨.inr rfl, rfl⟩

/-- ModuleSnapshot: taken, or nothing (40_sampler.md R162). -/
theorem Device.moduleSnapshot_cases (v : Device) :
    (v.modEn = true ∧ v.mDetect = true ∧
      v.moduleSnapshot =
        { v with msData := v.mData, msBits := v.mBits, msCmd := v.commandByte, msValid := true }) ∨
    ((v.modEn = false ∨ v.mDetect = false) ∧ v.moduleSnapshot = v) := by
  unfold Device.moduleSnapshot
  rcases h1 : v.modEn <;> rcases h2 : v.mDetect <;> simp

/-- EOF's third arm: the block's state after filter, enqueue unless skipped, and snapshot (40_sampler.md R158). -/
theorem State.deliverFrame_cases (s : State) :
    (s.dev.filterSkips s.cfg = true ∧
      s.deliverFrame = s.withDev (s.dev.filterUpdate s.cfg).moduleSnapshot) ∨
    (s.dev.filterSkips s.cfg = false ∧
      s.deliverFrame =
        let q := (s.withDev (s.dev.filterUpdate s.cfg)).enqueue (s.dev.filterUpdate s.cfg).pData
          (s.dev.filterUpdate s.cfg).pBits
        q.withDev q.dev.moduleSnapshot) := by
  rcases h : s.dev.filterSkips s.cfg
  · exact .inr ⟨rfl, by simp [State.deliverFrame, h]⟩
  · exact .inl ⟨rfl, by simp [State.deliverFrame, h]⟩

/-- DISC's clearings, by the clock level it finds (40_sampler.md R164). -/
theorem Device.silence_cases (c : Config) (v : Device) :
    (v.clkQ = true ∧ v.silence c = v.abandonWrite) ∨
    (v.clkQ = false ∧ v.silence c = { v.abandonWrite.clearAssembly c with synced := false }) := by
  rcases h : v.clkQ
  · exact .inr ⟨rfl, if_neg (by show ¬ v.clkQ = true; simp [h])⟩
  · exact .inl ⟨rfl, if_pos h⟩

/-! ### The host's operations -/

/-- POP: nothing on an empty FIFO, else one frame less (41_fifo_checksum.md R184). -/
theorem Device.pop_cases (c : Config) (v : Device) :
    (v.qLen = 0 ∧ v.pop c = v) ∨
    (0 < v.qLen ∧ v.pop c = { v with qTail := (v.qTail + 1) % c.queueCap, qLen := v.qLen - 1 }) := by
  unfold Device.pop
  split
  · exact .inr ⟨‹_›, rfl⟩
  · exact .inl ⟨by omega, rfl⟩

/-- CtrlWrite: the enables, after the abandonment if `vkp_en` falls (43_host_ops.md R225). -/
theorem Device.ctrlWrite_cases (v : Device) (b : Byte) :
    (v.vkpEn = true ∧ b.getLsbD 0 = false ∧
      v.ctrlWrite b = { v.abandonWrite with vkpEn := false, modEn := b.getLsbD 1 }) ∨
    ((v.vkpEn = false ∨ b.getLsbD 0 = true) ∧
      v.ctrlWrite b = { v with vkpEn := b.getLsbD 0, modEn := b.getLsbD 1 }) := by
  unfold Device.ctrlWrite
  generalize b.getLsbD 0 = x
  rcases h1 : v.vkpEn <;> cases x <;> simp

/-- The four acceptance conditions besides the character (42_writer.md R201). -/
theorem Device.acceptsKey_iff (c : Config) (v : Device) :
    v.acceptsKey c = true ↔
      v.vkpEn = true ∧ v.connected = true ∧ v.wrPending = false ∧ 1 ≤ v.wpart.toNat ∧
        v.wpart.toNat ≤ c.maxPartitions := by
  simp only [Device.acceptsKey, Device.partitionOk, Bool.and_eq_true, Bool.not_eq_true', decide_eq_true_eq]
  tauto

/-- The load of an accepted key, by its kind (42_writer.md R202, R204). -/
theorem Device.loadKey_cases (c : Config) (v : Device) (k : Key) :
    (keyIsAlarm k = true ∧ v.loadKey c k = v.loadAlarmKey c (keyPattern c.keyPatterns k)) ∨
    (keyIsAlarm k = false ∧ v.loadKey c k = v.loadSlotKey c (keyPattern c.keyPatterns k)) := by
  unfold Device.loadKey
  rcases h : keyIsAlarm k <;> simp

/-- WRITE_KEY: the request of the character's key, or a rejection (42_writer.md R201, R202). -/
theorem State.writeKey_cases (s : State) :
    (∃ k, keyOfCode s.dev.wkey = some k ∧ s.writeKey = s.requestKey k) ∨
    (keyOfCode s.dev.wkey = none ∧ s.writeKey = s.rejectKey) := by
  unfold State.writeKey
  rcases h : keyOfCode s.dev.wkey with _ | k
  · exact .inr ⟨rfl, rfl⟩
  · exact .inl ⟨k, rfl, rfl⟩

end Sys2Proof.Machine
end

