-- ==== Sys2Proof/Laws/Run.lean ====
section
/-! SUPPORT. How a step and a run of inputs unfold, and what a configuration that meets the constraints gives. -/

namespace Sys2Proof.Machine

/-- A configuration the spec gives a meaning is not refused (00_scope.md R5, R9). -/
theorem configRefusal_of_wf {c : Config} (h : c.wf = true) : configRefusal c = none := by
  simp only [Config.wf, Bool.and_eq_true, decide_eq_true_eq] at h
  simp [configRefusal, h.1, h.2]

/-- The constraints on the timing, the sizes and the queue (00_scope.md R4). -/
theorem Config.wf_bounds {c : Config} (h : c.wf = true) :
    1 ≤ c.tSample ∧ c.tSample ≤ c.tEof ∧ c.tEof < c.tDisc ∧ 3 ≤ c.readSize ∧ c.readSize ≤ 16 ∧ 1 ≤ c.queueCap ∧
      c.queueCap ≤ 255 ∧ 1 ≤ c.minFrameBits ∧ c.minFrameBits ≤ c.maxBits ∧ c.periodicCmds.Nodup := by
  simp only [Config.wf, Config.constraintsOk, Bool.and_eq_true, decide_eq_true_eq] at h
  tauto

/-- The constraints on the partitions and the writer's positions (00_scope.md R4). -/
theorem Config.wf_slots {c : Config} (h : c.wf = true) :
    1 ≤ c.maxPartitions ∧ c.maxPartitions ≤ 8 ∧ c.slots.length = c.maxPartitions ∧
      (∀ e ∈ c.slots, 9 ≤ e.start ∧ e.start + 8 ≤ c.maxBits) ∧ c.alarmStart + 8 ≤ c.maxBits := by
  simp only [Config.wf, Config.constraintsOk, Bool.and_eq_true, decide_eq_true_eq, List.all_eq_true,
    Config.slotOk] at h
  tauto

/-- A step with a pending input: reset, or the operation the input selects. -/
theorem step_cons {s : State} {x : Input} {rest : List Input} (h : s.cfg.wf = true) (hi : s.inputs = x :: rest) :
    step s = match s.dev.selects x with
      | none => .next (s.begin rest).resetDevice
      | some i => exec i (s.begin rest) := by
  rcases hs : s.dev.selects x <;> simp only [step, configRefusal_of_wf h, hi, hs]

/-- Every operation answers a next state with the parameters and the pending inputs it was given. -/
theorem exec_keeps_machine (i : Instr) (s : State) : ∃ t, exec i s = .next t ∧ t.cfg = s.cfg ∧ t.inputs = s.inputs := by
  cases i <;> refine ⟨_, rfl, ?_, ?_⟩ <;> simp

/-- A run of no inputs. -/
theorem State.runInputs_nil (s : State) : s.runInputs [] = .next { s with inputs := [] } := rfl

/-- A run, one input at a time: the selected operation, then the rest from the state it leaves. -/
theorem State.runInputs_cons {s t : State} {x : Input} {l : List Input} {i : Instr} (h : s.cfg.wf = true)
    (hs : s.dev.selects x = some i) (ht : exec i { s with inputs := l, out := Output.none } = .next t) :
    s.runInputs (x :: l) = t.runInputs l := by
  obtain ⟨u, hu, -, hl⟩ := exec_keeps_machine i { s with inputs := l, out := Output.none }
  rw [ht] at hu
  cases hu
  have hstep : Sys2Proof.core.step { s with inputs := x :: l } = .next t := by
    show step { s with inputs := x :: l } = .next t
    rw [step_cons (s := { s with inputs := x :: l }) h rfl]
    simp only [hs]
    exact ht
  have hl : t.inputs = l := hl
  simp only [State.runInputs, List.length_cons, Host.Core.run, hstep]
  subst hl
  rfl

end Sys2Proof.Machine
end

