-- ==== Sys2Proof/Tests/Slice0.lean ====
section
/-! SUPPORT. Tests of one decode or one step each, with the expected values taken from the spec's tables and vectors
(the comment names the source), and for every statement with hypotheses a concrete state that meets them. -/

namespace Sys2Proof.Tests

open Sys2Proof Sys2Proof.Machine

/-! ### Well-formedness -/

/-- A code of another CMD row is no CMD_RESERVED (43_host_ops.md R241). -/
theorem test_wf_refuses_named_command :
    (Instr.cmdReserved 0x03#8).wf = false ∧ (Instr.cmdReserved 0x00#8).wf = false := by and_intros <;> decide

/-- A key, a letter in either case and `/` are no KEY_UNKNOWN (44_keys.md R331). -/
theorem test_wf_refuses_named_character :
    (Instr.keyUnknownRejected 0x30#8).wf = false ∧ (Instr.keyUnknownRejected 0x66#8).wf = false ∧
      (Instr.keyUnknownRejected 0x2F#8).wf = false := by and_intros <;> decide

theorem test_wf_accepts_other_codes :
    (Instr.cmdReserved 0x04#8).wf = true ∧ (Instr.keyUnknownRejected 0x3A#8).wf = true ∧
      (Instr.keyUnknownRejected 0x00#8).wf = true := by and_intros <;> decide

/-! ### Decoding -/

/-- The five TICK patterns of 30_encoding.md R110, bit by bit. -/
theorem test_decode_tick :
    decode .tick [0b010#8, 1#8] = .ok (.tickFirst true false true, []) ∧
    decode .tick [0b101#8, 0#8] = .ok (.edgeRise false, []) ∧
    decode .tick [0b110#8, 1#8] = .ok (.edgeFall true, []) ∧
    decode .tick [0b100#8, 0#8] = .ok (.tickHoldLow false, []) ∧
    decode .tick [0b111#8, 1#8] = .ok (.tickHoldHigh true, []) := by and_intros <;> decide

/-- The HOST selects of 30_encoding.md R111, bit by bit: the registers. -/
theorem test_decode_host_reads_and_writes :
    decode .host [0b0000000#8, 0x5A#8] = .ok (.hrStatus, []) ∧
    decode .host [0b1000001#8, 0x5A#8] = .ok (.hwFlagclr 0x5A#8, []) ∧
    decode .host [0b0000010#8, 0x5A#8] = .ok (.hrCtrl, []) ∧
    decode .host [0b1000010#8, 0x5A#8] = .ok (.hwCtrl 0x5A#8, []) ∧
    decode .host [0b1000011#8, 0x5A#8] = .ok (.hwCmd 0x5A#8, []) ∧
    decode .host [0b0000100#8, 0x5A#8] = .ok (.hrQlen, []) ∧
    decode .host [0b0000101#8, 0x5A#8] = .ok (.hrFrontBits, []) ∧
    decode .host [0b0000110#8, 0x5A#8] = .ok (.hrFrontBytes, []) ∧
    decode .host [0b0000111#8, 0x5A#8] = .ok (.hrWkey, []) ∧
    decode .host [0b1000111#8, 0x5A#8] = .ok (.hwWkey 0x5A#8, []) ∧
    decode .host [0b0001000#8, 0x5A#8] = .ok (.hrWpart, []) ∧
    decode .host [0b1001000#8, 0x5A#8] = .ok (.hwWpart 0x5A#8, []) ∧
    decode .host [0b0001001#8, 0x5A#8] = .ok (.hrMsBits, []) ∧
    decode .host [0b0001010#8, 0x5A#8] = .ok (.hrMsBytes, []) ∧
    decode .host [0b0001011#8, 0x5A#8] = .ok (.hrMsCmd, []) ∧
    decode .host [0b0011011#8, 0x5A#8] = .ok (.hrFrontData 0b1011#4, []) ∧
    decode .host [0b0100110#8, 0x5A#8] = .ok (.hrMsData 0b0110#4, []) := by and_intros <;> decide

/-- The HOST selects of 30_encoding.md R111, bit by bit: the addresses of 20_memory.md R84. -/
theorem test_decode_host_reserved :
    decode .host [0b1001101#8, 0x5A#8] = .ok (.hostReserved0C0F true 0b01#2 0x5A#8, []) ∧
    decode .host [0b0110110#8, 0x5A#8] = .ok (.hostReserved303F false 0b0110#4 0x5A#8, []) ∧
    decode .host [0b1000000#8, 0x5A#8] = .ok (.hwStatusIgnored 0x5A#8, []) ∧
    decode .host [0b0000001#8, 0x5A#8] = .ok (.hrFlagclrZero, []) ∧
    decode .host [0b0000011#8, 0x5A#8] = .ok (.hrCmdZero, []) ∧
    decode .host [0b1000100#8, 0x5A#8] = .ok (.hwQlenIgnored 0x5A#8, []) ∧
    decode .host [0b1000101#8, 0x5A#8] = .ok (.hwFrontBitsIgnored 0x5A#8, []) ∧
    decode .host [0b1000110#8, 0x5A#8] = .ok (.hwFrontBytesIgnored 0x5A#8, []) ∧
    decode .host [0b1001001#8, 0x5A#8] = .ok (.hwMsBitsIgnored 0x5A#8, []) ∧
    decode .host [0b1001010#8, 0x5A#8] = .ok (.hwMsBytesIgnored 0x5A#8, []) ∧
    decode .host [0b1001011#8, 0x5A#8] = .ok (.hwMsCmdIgnored 0x5A#8, []) ∧
    decode .host [0b1011101#8, 0x5A#8] = .ok (.hwFrontDataIgnored 0b1101#4 0x5A#8, []) ∧
    decode .host [0b1100010#8, 0x5A#8] = .ok (.hwMsDataIgnored 0b0010#4 0x5A#8, []) := by and_intros <;> decide

/-- The command codes of 30_encoding.md R112. -/
theorem test_decode_cmd :
    decode .cmd [0b00000000#8] = .ok (.nop, []) ∧
    decode .cmd [0b00000001#8] = .ok (.pop, []) ∧
    decode .cmd [0b00000010#8] = .ok (.writeKey, []) ∧
    decode .cmd [0b00000011#8] = .ok (.filtclr, []) ∧
    decode .cmd [0b00000100#8] = .ok (.cmdReserved 0b00000100#8, []) := by and_intros <;> decide

/-- The characters of 44_keys.md R301 to R312, R322 to R325, R330 and one of R331. -/
theorem test_decode_key_characters :
    decode .key [0b00110000#8] = .ok (.key0, []) ∧
    decode .key [0b00110001#8] = .ok (.key1, []) ∧
    decode .key [0b00110010#8] = .ok (.key2, []) ∧
    decode .key [0b00110011#8] = .ok (.key3, []) ∧
    decode .key [0b00110100#8] = .ok (.key4, []) ∧
    decode .key [0b00110101#8] = .ok (.key5, []) ∧
    decode .key [0b00110110#8] = .ok (.key6, []) ∧
    decode .key [0b00110111#8] = .ok (.key7, []) ∧
    decode .key [0b00111000#8] = .ok (.key8, []) ∧
    decode .key [0b00111001#8] = .ok (.key9, []) ∧
    decode .key [0b00101010#8] = .ok (.keyStar, []) ∧
    decode .key [0b00100011#8] = .ok (.keyHash, []) ∧
    decode .key [0b01011011#8] = .ok (.keyOut1, []) ∧
    decode .key [0b01011101#8] = .ok (.keyOut2, []) ∧
    decode .key [0b01111011#8] = .ok (.keyOut3, []) ∧
    decode .key [0b01111101#8] = .ok (.keyOut4, []) ∧
    decode .key [0b00101111#8] = .ok (.keySlashRejected, []) ∧
    decode .key [0b00111010#8] = .ok (.keyUnknownRejected 0b00111010#8, []) := by and_intros <;> decide

/-- The letters of 44_keys.md R313 to R321, both cases. -/
theorem test_decode_key_letters :
    decode .key [0b01000110#8] = .ok (.keyFire false, []) ∧
    decode .key [0b01100110#8] = .ok (.keyFire true, []) ∧
    decode .key [0b01000001#8] = .ok (.keyAux false, []) ∧
    decode .key [0b01100001#8] = .ok (.keyAux true, []) ∧
    decode .key [0b01010000#8] = .ok (.keyPanic false, []) ∧
    decode .key [0b01110000#8] = .ok (.keyPanic true, []) ∧
    decode .key [0b01010011#8] = .ok (.keyStay false, []) ∧
    decode .key [0b01110011#8] = .ok (.keyStay true, []) ∧
    decode .key [0b01010111#8] = .ok (.keyAway false, []) ∧
    decode .key [0b01110111#8] = .ok (.keyAway true, []) ∧
    decode .key [0b01001110#8] = .ok (.keyNight false, []) ∧
    decode .key [0b01101110#8] = .ok (.keyNight true, []) ∧
    decode .key [0b01000011#8] = .ok (.keyChime false, []) ∧
    decode .key [0b01100011#8] = .ok (.keyChime true, []) ∧
    decode .key [0b01010010#8] = .ok (.keyReset false, []) ∧
    decode .key [0b01110010#8] = .ok (.keyReset true, []) ∧
    decode .key [0b01011000#8] = .ok (.keyExit false, []) ∧
    decode .key [0b01111000#8] = .ok (.keyExit true, []) := by and_intros <;> decide

/-- An event has no encoding, and bytes that are no operation are refused by name. -/
theorem test_decode_refuses :
    decode .event [0x00#8] = .error .eventHasNoEncoding ∧ decode .tick [0x08#8, 0#8] = .error .tickPatternTooWide ∧
    decode .tick [0x05#8, 2#8] = .error .dataLevelTooWide ∧ decode .host [0x80#8, 0#8] = .error .hostSelectTooWide ∧
    decode .host [0x00#8] = .error .truncated ∧ encode (.sampleP true) = none ∧ encode (.sampleM true) = none ∧
    encode .eof = none ∧ encode .disc = none ∧ encode .enqueue = none := by and_intros <;> decide

/-- What the host's bare words are read as (log 13). -/
theorem test_table_words :
    decodeTableWord 8 0x01 = some .pop ∧ decodeTableWord 8 0x05 = some (.edgeRise false) ∧
    decodeTableWord 8 0x42 = some (.hwCtrl 0x00#8) ∧ decodeTableWord 8 0x31 = some .key1 ∧
    decodeTableWord 8 0x17 = some (.hrFrontData 0x7#4) ∧ decodeTableWord 8 0x73 = some (.keyStay true) := by
  and_intros <;> decide

/-! ### A small instance

The constraints of 00_scope.md R4 hold with these values: 17 bits at most, a slot at 9, an alarm at 1. -/

/-- A configuration small enough to evaluate. -/
def small : Config :=
  { Config.default with
    tSample := 1, tEof := 2, tDisc := 4, readSize := 3, queueCap := 2, minFrameBits := 8
    periodicCmds := [0x05#8], maxPartitions := 1, slots := [⟨0x05#8, 9⟩], alarmStart := 1 }

/-- Its block right after reset. -/
def blank : Device := Device.reset small

/-- The machine with the block `v` and the inputs `l`. -/
def machine (v : Device) (l : List Input) : State := ⟨small, v, l, Output.none⟩

/-- The default machine with the block `v` and the inputs `l`. -/
def machineD (v : Device) (l : List Input) : State := ⟨Config.default, v, l, Output.none⟩

/-- The state a step answered. -/
def answered (r : Host.Outcome State Fault Refusal) : Option State :=
  match r with
  | .next t => some t
  | _ => none

/-- The block after one operation on the small machine. -/
def after (i : Instr) (v : Device) : Option Device := (answered (exec i (machine v []))).map State.dev

/-- What a read of the small machine shows. -/
def shown (i : Instr) (v : Device) : Option (Option Byte) :=
  (answered (exec i (machine v []))).map fun t => t.out.rdata

/-- A connected, synchronised block with the clock high and the writer enabled. -/
def ready : Device :=
  { blank with clkSeen := true, clkQ := true, synced := true, connected := true, vkpEn := true, modEn := true }

/-- `ready` with a request for the pattern 0x05 at bit 9 of a 0x05 frame (95_test_vectors.md V52). -/
def requested : Device := { ready with wrPending := true, wrPattern := 0x05#8, wrStart := 9, wrCmd := 0x05#8 }

/-- `requested` when the panel has sent the command byte and the stop bit. -/
def atSlot : Device := { requested with pData := [0x05#8, 0#8, 0#8], pBits := 9 }

/-- `ready` with one captured frame in the FIFO. -/
def queued : Device :=
  { ready with slots := [⟨[0x27#8, 0#8, 0x27#8], 17, 3⟩, ⟨[0#8, 0#8, 0#8], 0, 0⟩], qHead := 1, qLen := 1 }

/-- `ready` with a whole 0x05 frame assembled. -/
def assembled : Device := { ready with pData := [0x05#8, 0#8, 0x81#8], pBits := 17, highCnt := 2, idleCnt := 2 }

theorem test_small_is_wf : small.wf = true ∧ Config.default.wf = true := by and_intros <;> decide

/-! ### One step -/

/-- V1: the byte of each wire bit. -/
theorem test_byteIndex :
    [0, 7, 8, 9, 16, 17, 24, 25, 120, 121].map byteIndex = [0, 0, 1, 2, 2, 3, 3, 4, 15, 16] := by decide

/-- V2: bits 1,0,1,0,0,1,0,1 make 0xA5; the first three alone make 0x05. -/
theorem test_shiftIn :
    [true, false, true, false, false, true, false, true].foldl shiftIn 0#8 = 0xA5#8 ∧
      [true, false, true].foldl shiftIn 0#8 = 0x05#8 := by and_intros <;> decide

/-- V30 to V38: the checksum verdicts. -/
theorem test_checksum :
    ckOk [0x27#8, 0x00#8, 0x27#8] 3 = true ∧ ckOk [0x00#8, 0x00#8, 0x00#8] 3 = true ∧
    ckOk [0xF0#8, 0x00#8, 0x20#8, 0x10#8] 4 = true ∧ ckOk [0xF0#8, 0x01#8, 0x20#8, 0x10#8] 4 = true ∧
    ckOk [0x27#8, 0x00#8, 0x05#8] 3 = false ∧ ckOk [0x05#8, 0x00#8] 2 = false ∧
    ckOk [0x27#8, 0x00#8, 0x05#8, 0x81#8, 0x01#8, 0x91#8, 0xC7#8, 0x00#8, 0x00#8, 0x06#8] 10 = true ∧
    ckOk [0x27#8, 0x00#8, 0x05#8, 0x81#8, 0x01#8, 0x91#8, 0xC7#8, 0x00#8, 0x00#8, 0x07#8] 10 = false ∧
    ckOk [0xFF#8, 0x01#8, 0xFF#8, 0xFF#8, 0xFD#8] 5 = true := by and_intros <;> decide

/-- V10: the first tick, clock high, from reset by `step`. -/
theorem test_first_tick :
    (answered (step { State.reset with inputs := [.tick true true] })).map
        (fun t => (t.dev.clkSeen, t.dev.clkQ, t.dev.highCnt, t.dev.statusByte)) =
      some (true, true, 0, 0x10#8) := by decide

/-- V11: the rising edge at tick 11. -/
theorem test_edge_rise :
    (answered (step (machineD { Device.reset Config.default with clkSeen := true, idleCnt := 9 } [.tick true true]))).map
        (fun t => (t.dev.idleCnt, t.dev.sampArmed, t.dev.statusByte)) =
      some (0, true, 0x1C#8) := by decide

/-- V51, key 0x16 = 0001 0110, k = 3: the rising edge releases, the falling edge of bit 12 drives high (1). -/
theorem test_edge_fall_window :
    (after (.edgeFall true) { atSlot with wrActive := true, wrPattern := 0x16#8, pBits := 12 }).map Device.driveLow =
        some false ∧
      (after (.edgeFall true) { atSlot with wrActive := true, wrPattern := 0x16#8, pBits := 13 }).map Device.driveLow =
        some true := by and_intros <;> decide

/-- V52: the window opens at `p_bits` = 9 with the line low; V55: it does not open later. -/
theorem test_edge_fall_opens :
    (after (.edgeFall true) atSlot).map (fun v => (v.wrActive, v.driveLow)) = some (true, true) ∧
      (after (.edgeFall true) { atSlot with pBits := 10 }).map (fun v => (v.wrActive, v.driveLow)) =
        some (false, false) := by and_intros <;> decide

/-- V22: the disconnect with the clock low. -/
theorem test_hold_low_disconnects :
    (after (.tickHoldLow true) { ready with clkQ := false, pBits := 3, idleCnt := 4 }).map
        (fun v => (v.connected, v.connChanged, v.synced, v.pBits, v.idleCnt, v.statusByte)) =
      some (false, true, false, 0, 5, 0x18#8) := by decide

/-- V12: the module sample is taken at `T_SAMPLE`, on the driven line. -/
theorem test_hold_low_samples :
    (after (.tickHoldLow true) { ready with clkQ := false, sampArmed := true, driveLow := true }).map
        (fun v => (v.mBits, v.mData, v.mDetect, v.sampArmed)) =
      some (1, [0#8, 0#8, 0#8], true, false) := by decide

/-- V10: the tick that makes `high_cnt` `T_EOF` + 1 synchronises; V17: the one before does not. -/
theorem test_hold_high_boundary :
    (answered (exec (.tickHoldHigh true)
          (machineD { Device.reset Config.default with clkSeen := true, clkQ := true, highCnt := 1000 } []))).map
        (fun t => (t.dev.highCnt, t.dev.synced, t.dev.statusByte)) = some (1001, true, 0x50#8) ∧
    (answered (exec (.tickHoldHigh true)
          (machineD { Device.reset Config.default with clkSeen := true, clkQ := true, highCnt := 999 } []))).map
        (fun t => (t.dev.highCnt, t.dev.synced)) = some (1000, false) := by and_intros <;> decide

/-- V16: a full buffer stores nothing more; V15: the next bit of an unfinished byte. -/
theorem test_sample_p :
    (after (.sampleP true) { ready with pBits := 17 }).map Device.pBits = some 17 ∧
    (after (.sampleP true) { ready with pData := [0xA5#8, 1#8, 0x02#8], pBits := 11 }).map
        (fun v => (v.pData, v.pBits)) = some ([0xA5#8, 1#8, 0x05#8], 12) := by and_intros <;> decide

/-- V21: a low sample is detected even with the buffer full; without MOD_EN nothing is. -/
theorem test_sample_m :
    (after (.sampleM false) { ready with mBits := 17 }).map (fun v => (v.mBits, v.mDetect)) = some (17, true) ∧
    (after (.sampleM false) { ready with modEn := false }).map (fun v => (v.mBits, v.mDetect)) =
      some (0, false) := by and_intros <;> decide

/-- V13: seven bits are discarded; V14: eight are kept. -/
theorem test_eof_length :
    (after .eof { ready with pBits := 7 }).map (fun v => (v.qLen, v.pBits)) = some (0, 0) ∧
    (after .eof { ready with pData := [0xA5#8, 0#8, 0#8], pBits := 8 }).map
        (fun v => (v.qLen, v.frontBits, v.frontBytes, v.statusByte)) = some (1, 8#8, 1#8, 0x55#8) := by
  and_intros <;> decide

/-- V19: a repeated 0x05 frame is filtered; V20: the module snapshot. -/
theorem test_eof_filter_and_snapshot :
    (after .eof { assembled with filt := [⟨true, [0x05#8, 0#8, 0x81#8]⟩] }).map (fun v => v.qLen) = some 0 ∧
    (after .eof { assembled with mData := [0xFF#8, 1#8, 0xE9#8], mBits := 17, mDetect := true }).map
        (fun v => (v.qLen, v.msData, v.msBits, v.msCmd, v.msValid)) =
      some (1, [0xFF#8, 1#8, 0xE9#8], 17, 0x05#8, true) := by and_intros <;> decide

/-- V23: a disconnect with `connected` already 0 changes no flag; V54: it abandons an alarm's second write. -/
theorem test_disc :
    (after .disc { blank with clkQ := true, synced := true }).map Device.statusByte = some 0x50#8 ∧
    (after .disc { requested with wrAlarm := true, wrSecond := true }).map
        (fun v => (v.connected, v.wrPending, v.wrSecond)) = some (false, false, false) := by and_intros <;> decide

/-- V40: a full FIFO keeps its frames and sets OVERFLOW; V41: the head wraps. -/
theorem test_enqueue :
    (after .enqueue { assembled with qLen := 2 }).map (fun v => (v.overflow, v.qLen, v.slots)) =
      some (true, 2, blank.slots) ∧
    (after .enqueue { assembled with qLen := 1, qHead := 1 }).map (fun v => (v.qHead, v.qLen)) = some (0, 2) := by
  and_intros <;> decide

/-- V60: what the registers show right after reset; V30: the front frame's verdict in STATUS. -/
theorem test_read_status :
    shown .hrStatus blank = some (some 0x10#8) ∧ shown .hrStatus queued = some (some 0x75#8) := by and_intros <;> decide

/-- V63 and V62: the plain registers read back, CTRL without the bits it does not have. -/
theorem test_read_plain_registers :
    shown .hrCtrl ready = some (some 0x03#8) ∧ shown .hrWkey { blank with wkey := 0xAB#8 } = some (some 0xAB#8) ∧
    shown .hrWpart { blank with wpart := 0xCD#8 } = some (some 0xCD#8) ∧ shown .hrQlen queued = some (some 1#8) ∧
    shown .hrFlagclrZero ready = some (some 0#8) ∧ shown .hrCmdZero ready = some (some 0#8) := by and_intros <;> decide

/-- V39 and V14: the front window, empty and not. -/
theorem test_read_front :
    shown .hrFrontBits queued = some (some 17#8) ∧ shown .hrFrontBytes queued = some (some 3#8) ∧
    shown (.hrFrontData 0x2#4) queued = some (some 0x27#8) ∧ shown (.hrFrontData 0x3#4) queued = some (some 0#8) ∧
    shown .hrFrontBits blank = some (some 0#8) ∧ shown (.hrFrontData 0x0#4) { queued with qLen := 0 } =
      some (some 0#8) := by and_intros <;> decide

/-- V20: the snapshot's registers. -/
theorem test_read_snapshot :
    let v := { ready with msData := [0xFF#8, 1#8, 0xE9#8], msBits := 17, msCmd := 0x05#8 }
    shown .hrMsBits v = some (some 17#8) ∧ shown .hrMsBytes v = some (some 3#8) ∧
      shown .hrMsCmd v = some (some 0x05#8) ∧ shown (.hrMsData 0x2#4) v = some (some 0xE9#8) ∧
      shown (.hrMsData 0x3#4) v = some (some 0#8) := by and_intros <;> decide

/-- V61: the writes that do nothing, and the reserved addresses. -/
theorem test_inert_accesses :
    ((ignoredWriteRows 0xF#4 0xFF#8 ++
        [Instr.hostReserved0C0F true 0#2 0x01#8, Instr.hostReserved303F true 0xF#4 0x01#8]).all
      fun i => after i queued == some queued) = true ∧
    shown (.hostReserved0C0F false 3#2 0#8) queued = some (some 0#8) ∧
    shown (.hostReserved303F false 0#4 0#8) queued = some (some 0#8) := by and_intros <;> decide

/-- V64: write one to clear. -/
theorem test_flagclr :
    let v := { ready with overflow := true, connChanged := true, msValid := true }
    (after (.hwFlagclr 0x02#8) v).map (fun v => (v.overflow, v.connChanged, v.msValid)) = some (false, true, true) ∧
    (after (.hwFlagclr 0x88#8) v).map (fun v => (v.overflow, v.connChanged, v.msValid, v.connected)) =
      some (true, false, false, true) := by and_intros <;> decide

/-- V62: CTRL's two bits; V53: VKP_EN from 1 to 0 in the middle of a window releases the line. -/
theorem test_ctrl_write :
    (after (.hwCtrl 0xFF#8) blank).map Device.ctrlByte = some 0x03#8 ∧
    (after (.hwCtrl 0x02#8) { atSlot with clkQ := false, wrActive := true, driveLow := true }).map
        (fun v => (v.driveLow, v.wrActive, v.wrPending, v.modEn)) = some (false, false, false, true) := by
  and_intros <;> decide

/-- V63: WKEY and WPART take any value. -/
theorem test_key_and_partition_write :
    (after (.hwWkey 0xAB#8) blank).map Device.wkey = some 0xAB#8 ∧
    (after (.hwWpart 0xCD#8) blank).map Device.wpart = some 0xCD#8 := by and_intros <;> decide

/-- V61 and R241: NOP and reserved codes; V42: FILTCLR; V39: POP on empty. -/
theorem test_commands :
    after .nop queued = some queued ∧ after (.hwCmd 0xFF#8) queued = some queued ∧
    after (.cmdReserved 0x04#8) queued = some queued ∧ after .pop blank = some blank ∧
    (after (.hwCmd 0x01#8) queued).map (fun v => (v.qLen, v.qTail)) = some (0, 1) ∧
    (after .filtclr { queued with filt := [⟨true, [1#8, 2#8, 3#8]⟩] }).map Device.filt =
      some [⟨false, [1#8, 2#8, 3#8]⟩] := by and_intros <;> decide

/-- V50a to V50h: the acceptance conditions, on the default instance. -/
theorem test_write_key_acceptance :
    let v : Device := { Device.reset Config.default with
      clkSeen := true, clkQ := true, synced := true, connected := true, connChanged := true, vkpEn := true }
    let try_ := fun (key part : Byte) (v : Device) =>
      (answered (exec .writeKey (machineD { v with wkey := key, wpart := part } []))).map fun t =>
        (t.dev.wrPattern, t.dev.wrCmd, t.dev.wrStart, t.dev.statusByte)
    try_ 0x2F#8 1#8 v = some (0#8, 0#8, 0, 0x5C#8) ∧ try_ 0x31#8 0#8 v = some (0#8, 0#8, 0, 0x5C#8) ∧
    try_ 0x31#8 9#8 v = some (0#8, 0#8, 0, 0x5C#8) ∧ try_ 0x31#8 8#8 v = some (0x05#8, 0x1B#8, 65, 0x4C#8) ∧
    try_ 0x31#8 1#8 { v with vkpEn := false } = some (0#8, 0#8, 0, 0x5C#8) ∧
    try_ 0xC1#8 1#8 v = some (0#8, 0#8, 0, 0x5C#8) := by and_intros <;> decide

/-- V56: the table of 44_keys.md R300, pattern and alarm flag of every code. -/
theorem test_every_key :
    ([(0x30, 0x00, 0), (0x31, 0x05, 0), (0x32, 0x0A, 0), (0x33, 0x0F, 0), (0x34, 0x11, 0), (0x35, 0x16, 0),
      (0x36, 0x1B, 0), (0x37, 0x1C, 0), (0x38, 0x22, 0), (0x39, 0x27, 0), (0x2A, 0x28, 0), (0x23, 0x2D, 0),
      (0x46, 0xBB, 1), (0x66, 0xBB, 1), (0x41, 0xDD, 1), (0x61, 0xDD, 1), (0x50, 0xEE, 1), (0x70, 0xEE, 1),
      (0x53, 0xAF, 0), (0x73, 0xAF, 0), (0x57, 0xB1, 0), (0x77, 0xB1, 0), (0x4E, 0xB6, 0), (0x6E, 0xB6, 0),
      (0x43, 0xBB, 0), (0x63, 0xBB, 0), (0x52, 0xDA, 0), (0x72, 0xDA, 0), (0x58, 0xE1, 0), (0x78, 0xE1, 0),
      (0x5B, 0xD5, 0), (0x5D, 0xDA, 0), (0x7B, 0x70, 0), (0x7D, 0xEC, 0)].all fun r =>
      keymap Config.default (BitVec.ofNat 8 r.1) == some (BitVec.ofNat 8 r.2.1, r.2.2 == 1)) = true ∧
    ([0x00, 0x2F, 0x3A, 0x40, 0x5A, 0x5C, 0x7C, 0x7E, 0x7F, 0xC1, 0xFF].all fun c =>
      keymap Config.default (BitVec.ofNat 8 c) == none) = true := by and_intros <;> decide

/-- V56: an alarm key's row and a slot key's row, as rows. -/
theorem test_key_rows :
    (after (.keyFire true) ready).map (fun v => (v.wrPattern, v.wrAlarm, v.wrAny, v.wrStart, v.wrPending)) =
      some (0xBB#8, true, true, 1, true) ∧
    (after .key5 ready).map (fun v => (v.wrPattern, v.wrAlarm, v.wrCmd, v.wrStart, v.wrPending)) =
      some (0x16#8, false, 0x05#8, 9, true) ∧
    after .keySlashRejected ready = some ready ∧ after (.keyUnknownRejected 0x3A#8) ready = some ready := by
  and_intros <;> decide

/-- The next step runs the word that was placed (log 14). -/
theorem test_placed_words_run :
    (answered (step (State.reset.withFetchWord 8 0x05))).map (fun t => (t.dev.connected, t.dev.clkQ)) =
      some (true, true) ∧
    (answered (step (State.reset.withFetchWord 8 (0x42 + 256 * 0x03)))).map (fun t => t.dev.ctrlByte) =
      some 0x03#8 ∧
    (answered (step (State.reset.withFetchWord 8 0x31))).map (fun t => t.out.raised) = some [.invalidWrite] := by
  and_intros <;> decide

/-- V24: in one period the host's POP precedes the tick. -/
theorem test_period_order :
    (Period.inputs ⟨false, true, true, true, true, 0x03#6, 0x01#8⟩) =
      [.host true 0x03#6 0x01#8, .tick true true] ∧
    (Period.inputs ⟨true, true, true, true, true, 0x03#6, 0x01#8⟩) = [.rst] := by and_intros <;> decide

/-! ### Statements that are not empty: a concrete state for each hypothesis -/

theorem witness_DecodeOfEncodeIsTheOperation :
    (Instr.cmdReserved 0x04#8).wf = true ∧ (Instr.cmdReserved 0x04#8).isEvent = false ∧
      (Instr.keyUnknownRejected 0xFF#8).wf = true ∧ (Instr.hrMsData 0xF#4).isEvent = false := by and_intros <;> decide

/-- For DecodedOperationIsWellFormed and EncoderKeepsEverySelectBit. -/
theorem witness_decoded_operations :
    decode .cmd [0x04#8, 0x00#8] = .ok (.cmdReserved 0x04#8, [0x00#8]) ∧
      decode .host [0x7F#8, 0x01#8] = .ok (.hostReserved303F true 0xF#4 0x01#8, []) := by and_intros <;> decide

theorem witness_StepRunsTheDecodedOperation :
    (machine blank [.tick true true]).cfg.wf = true ∧ Input.tick true true ≠ .rst ∧
      (machine blank [.host true 0x02#6 0x03#8]).cfg.wf = true ∧ Input.host true 0x02#6 0x03#8 ≠ .rst := by
  and_intros <;> decide

theorem witness_StepAlwaysAnswersNext : State.reset.cfg.wf = true ∧ (machine blank []).cfg.wf = true := by
  and_intros <;> decide

/-- One broken constraint each, at its boundary, and the Classic dialect: each is refused. -/
theorem witness_BadConfigurationIsRefused :
    ([{ small with tickNs := 0 }, { small with tSample := 0 }, { small with tSample := 3 }, { small with tDisc := 2 },
      { small with readSize := 2 }, { small with readSize := 17 }, { small with queueCap := 0 },
      { small with queueCap := 256 }, { small with minFrameBits := 0 }, { small with minFrameBits := 18 },
      { small with periodicCmds := [0x05#8, 0x05#8] }, { small with maxPartitions := 0 },
      { small with maxPartitions := 9 }, { small with slots := [⟨0x05#8, 8⟩] }, { small with slots := [⟨0x05#8, 10⟩] },
      { small with alarmStart := 10 }].all fun c => configRefusal c == some .badConfiguration) = true ∧
    configRefusal { small with dialect := .classic } = some .classicDialect := by and_intros <;> decide

theorem witness_NoInputFreezesTheBlock : State.reset.cfg.wf = true ∧ State.reset.inputs = [] := by and_intros <;> decide

theorem witness_HostAccessPrecedesTheTick :
    let p : Period := ⟨false, true, true, true, true, 0x03#6, 0x01#8⟩
    (machine queued []).cfg.wf = true ∧ (machine queued []).inputs = [] ∧ p.rst = false ∧ p.hValid = true := by
  and_intros <;> decide

theorem witness_ResetGivesEveryElementItsResetValue :
    (machine queued [.rst]).cfg.wf = true ∧ (machine queued [.rst]).inputs = .rst :: [] := by and_intros <;> decide

theorem witness_FirstTickOnlyLoadsTheClock :
    let s := machine blank [.tick false true]
    s.cfg.wf = true ∧ s.dev.clkSeen = false ∧ s.inputs = .tick false true :: [] := by and_intros <;> decide

/-- A window that opens on the command byte, one that opens in any frame, k = 0 and k = 7 of an open one, and one
that is past. -/
theorem witness_FallingEdgePresentsOnePatternBit :
    (atSlot.wrPending = true ∧ atSlot.vkpEn = true ∧ atSlot.synced = true ∧ atSlot.wrActive = false ∧
      atSlot.pBits = atSlot.wrStart ∧ 8 ≤ atSlot.pBits ∧ byteAt atSlot.pData 0 = atSlot.wrCmd) ∧
    (let v := { requested with wrAny := true, wrStart := 1, pBits := 1 }
     v.wrAny = true ∧ v.pBits = v.wrStart) ∧
    (let v := { atSlot with wrActive := true }
     v.wrActive = true ∧ v.pBits = v.wrStart + 0) ∧
    (let v := { atSlot with wrActive := true, pBits := 16 }
     v.wrActive = true ∧ v.pBits = v.wrStart + 7) ∧
    (let v := { atSlot with pBits := 10 }
     v.wrActive = false ∧ v.pBits ≠ v.wrStart) := by and_intros <;> decide

/-- For HoldLowTickFiresItsEvents and HoldHighTickFiresItsEvents: a due sample and none; the idle timer at, below and
past `T_DISC`; the high timer at and below `T_EOF`. -/
theorem witness_hold_ticks :
    (let v := { ready with sampArmed := true }
     v.sampArmed = true ∧ v.sampCnt + 1 = small.tSample) ∧ ready.sampArmed = false ∧
    (let v := { ready with idleCnt := 4 }
     v.idleCnt = small.tDisc) ∧ ready.idleCnt < small.tDisc ∧
    (let v := { ready with idleCnt := 5 }
     small.tDisc < v.idleCnt) ∧ assembled.highCnt = small.tEof ∧ ready.highCnt < small.tEof := by and_intros <;> decide

/-- For PanelSampleAppendsOneBit and ModuleSampleAppendsAndDetects: room for one more bit, and none. -/
theorem witness_samples :
    (let v := { ready with pBits := 16, mBits := 16 }
     v.synced = true ∧ v.modEn = true ∧ v.pBits < 8 * small.readSize - 7 ∧ v.mBits < 8 * small.readSize - 7) ∧
    (let v := { ready with pBits := 17, mBits := 17 }
     ¬ v.pBits < 8 * small.readSize - 7 ∧ ¬ v.mBits < 8 * small.readSize - 7) ∧ blank.synced = false := by
  and_intros <;> decide

theorem witness_WireBitsAssembleMsbFirst :
    [true, false, true, false, false, true, false, true] = msbFirst 0xA5#8 ∧ byteAt blank.pData 0 = 0#8 ∧
      byteAt blank.pData 2 = 0#8 ∧ byteAt blank.pData 1 = 0#8 := by and_intros <;> decide

theorem witness_FirstBoundaryOnlySynchronises : (machine blank []).dev.synced = false := by decide

theorem witness_ShortFrameIsDiscarded :
    let s := machine { ready with pBits := 7 } []
    s.dev.synced = true ∧ s.dev.pBits < s.cfg.minFrameBits := by and_intros <;> decide

/-- The small blocks have the arrays of 10_state.md R20. -/
theorem assembled_shape : Shape small assembled := by constructor <;> decide

theorem queued_shape : Shape small queued := by constructor <;> decide

/-- A redundant frame, a new periodic one, one that is not periodic; a full FIFO and one with room; a snapshot and
none. -/
theorem witness_WholeFrameIsFilteredQueuedAndSnapshotted :
    (small.wf = true ∧ assembled.synced = true ∧ small.minFrameBits ≤ assembled.pBits) ∧
    (small.periodicCmds[0]? = some (byteAt assembled.pData 0) ∧
      assembled.filt[0]? ≠ some (FilterSlot.mk true assembled.pData)) ∧
    (let v := { assembled with filt := [⟨true, assembled.pData⟩] }
     v.filt[0]? = some (FilterSlot.mk true v.pData)) ∧
    (let v := { assembled with pData := [0x27#8, 0#8, 0x27#8] }
     byteAt v.pData 0 ∉ small.periodicCmds) ∧
    assembled.qLen ≠ small.queueCap ∧ { assembled with qLen := 2 }.qLen = small.queueCap ∧
    (let v := { assembled with mDetect := true }
     v.modEn = true ∧ v.mDetect = true) ∧ assembled.mDetect = false := by and_intros <;> decide

theorem witness_RepeatedPeriodicFrameIsFiltered :
    small.wf = true ∧ assembled.synced = true ∧ small.minFrameBits ≤ assembled.pBits ∧ small.minFrameBits ≤ 8 ∧
      byteAt assembled.pData 0 ∈ small.periodicCmds := by and_intros <;> decide

theorem witness_EnqueueStoresOrFlagsOverflow :
    (machine assembled []).dev.qHead < (machine assembled []).dev.slots.length ∧ assembled.qLen ≠ small.queueCap ∧
      { assembled with qLen := 2 }.qLen = small.queueCap := by and_intros <;> decide

theorem witness_FifoKeepsCaptureOrder : small.wf = true ∧ Shape small queued ∧ QueueOk small queued := by
  refine ⟨by decide, queued_shape, ?_⟩
  constructor <;> decide

/-- Whatever a cleared array is asked, nothing is in it. -/
theorem blank_assembled : Assembled (zeroBytes small) 0 :=
  ⟨fun j _ => byteAt_zeroBytes small j, by simp [bitsInByte]⟩

theorem blank_inv : Inv small blank where
  shape := by constructor <;> decide
  queue := by constructor <;> decide
  live := by
    intro f hf
    have h : blank.liveFrames small = [] := by decide
    rw [h] at hf
    exact absurd hf List.not_mem_nil
  pBits := by decide
  mBits := by decide
  msBits := by decide
  panelStream := blank_assembled
  moduleStream := blank_assembled
  writer := by constructor <;> decide
  timers := by constructor <;> decide
  quiet := by constructor <;> decide

theorem queued_inv : Inv small queued where
  shape := queued_shape
  queue := by constructor <;> decide
  live := by
    intro f hf
    have h : queued.liveFrames small = [⟨[0x27#8, 0#8, 0x27#8], 17, 3⟩] := by decide
    rw [h, List.mem_singleton] at hf
    subst hf
    constructor <;> decide
  pBits := by decide
  mBits := by decide
  msBits := by decide
  panelStream := blank_assembled
  moduleStream := blank_assembled
  writer := by constructor <;> decide
  timers := by constructor <;> decide
  quiet := by constructor <;> decide

theorem witness_FrontFrameIsStable :
    let s := machine queued [.host true 0x03#6 0x02#8]
    s.Good ∧ 0 < s.dev.qLen ∧ s.inputs = .host true 0x03#6 0x02#8 :: [] ∧ Input.host true 0x03#6 0x02#8 ≠ .rst ∧
      Input.host true 0x03#6 0x02#8 ≠ .host true 0x03#6 0x01#8 ∧ ∃ t, step s = .next t :=
  ⟨⟨by decide, queued_inv⟩, by decide, rfl, by decide, by decide, _, rfl⟩

theorem witness_FiltclrInvalidatesEverySlot : blank.filt[0]? = some (FilterSlot.mk false [0#8, 0#8, 0#8]) := by decide

/-- For FrontWindowReadsTheFrontSlot and StatusShowsItsEightBits. -/
theorem witness_front_reads :
    blank.qLen = 0 ∧ 0 < queued.qLen ∧
      queued.slots[queued.qTail]? = some (FrameSlot.mk [0x27#8, 0#8, 0x27#8] 17 3) := by and_intros <;> decide

theorem witness_EveryReadIsFreeOfSideEffects :
    let s := machine queued [.host false 0x3F#6 0xFF#8]
    s.cfg.wf = true ∧ s.inputs = .host false 0x3F#6 0xFF#8 :: [] := by and_intros <;> decide

/-- For KeyAndPartitionWritesOnlyStore and ReadAfterWriteOfHostRegisters. -/
theorem witness_host_writes :
    let s := machine blank [.host true 0x07#6 0xAB#8]
    let u := machine blank [.host true 0x08#6 0xCD#8]
    s.cfg.wf = true ∧ s.inputs = .host true 0x07#6 0xAB#8 :: [] ∧ u.inputs = .host true 0x08#6 0xCD#8 :: [] := by
  and_intros <;> decide

theorem witness_NopAndReservedCommandsAreInert : 4 ≤ (0x04#8).toNat ∧ 4 ≤ (0xFF#8).toNat := by and_intros <;> decide

/-- A slot key and an alarm key, at both ends of the partitions. -/
theorem witness_AcceptedRequestIsLoaded :
    (let s := machine { ready with wkey := 0x31#8 } []
     s.dev.vkpEn = true ∧ s.dev.connected = true ∧ s.dev.wrPending = false ∧
        keymap s.cfg s.dev.wkey = some (0x05#8, false) ∧ 1 ≤ s.dev.wpart.toNat ∧
        s.dev.wpart.toNat ≤ s.cfg.maxPartitions ∧
        s.cfg.slots[s.dev.wpart.toNat - 1]? = some (KeySlot.mk 0x05#8 9)) ∧
    (let s := machineD { ready with wkey := 0x66#8, wpart := 0x08#8 } []
     keymap s.cfg s.dev.wkey = some (0xBB#8, true) ∧ s.dev.wpart.toNat ≤ s.cfg.maxPartitions ∧
        s.cfg.slots[s.dev.wpart.toNat - 1]? = some (KeySlot.mk 0x1B#8 65)) := by and_intros <;> decide

theorem witness_RequestIsRejectedUnlessAllFiveHold :
    blank.vkpEn = false ∧ blank.connected = false ∧ requested.wrPending = true ∧ keymap small 0x2F#8 = none ∧
      { ready with wpart := 0#8 }.wpart.toNat < 1 ∧
      small.maxPartitions < { ready with wpart := 2#8 }.wpart.toNat := by and_intros <;> decide

/-- For SlotKeyRowsLoadTheirPattern and AlarmKeyRowsLoadTheirPattern. -/
theorem witness_key_rows :
    ready.vkpEn = true ∧ ready.connected = true ∧ ready.wrPending = false ∧ 1 ≤ ready.wpart.toNat ∧
      ready.wpart.toNat ≤ small.maxPartitions ∧
      small.slots[ready.wpart.toNat - 1]? = some (KeySlot.mk 0x05#8 9) ∧
      (Instr.keyExit true, 0xE1#8) ∈ slotKeyRows small.keyPatterns true ∧
      (Instr.keyPanic false, 0xEE#8) ∈ alarmKeyRows small.keyPatterns false := by and_intros <;> decide

theorem witness_SlashAndUnknownCharactersAreRejected :
    { ready with wkey := 0x2F#8 }.wkey = 0x2F#8 ∧
      (Instr.keyUnknownRejected { ready with wkey := 0x3A#8 }.wkey).wf = true := by and_intros <;> decide

theorem witness_LetterCaseDoesNotMatter : 0x41 ≤ (0x5A#8).toNat ∧ (0x41#8).toNat ≤ 0x5A := by and_intros <;> decide

/-- The first and the last bit of a window. -/
theorem witness_WindowBitIsReadBack :
    (let s := machine atSlot []
     s.cfg.wf = true ∧ s.dev.clkSeen = true ∧ s.dev.clkQ = true ∧ s.dev.synced = true ∧ s.dev.modEn = true ∧
        s.dev.wrPending = true ∧ s.dev.vkpEn = true ∧ s.dev.mBits < s.cfg.maxBits ∧
        s.dev.pBits = s.dev.wrStart + 0 ∧ s.dev.frameMatch = true ∧ ([] : List Bool).length + 1 = s.cfg.tSample) ∧
    (let s := machine { atSlot with wrActive := true, pBits := 16 } []
     s.dev.wrActive = true ∧ s.dev.pBits = s.dev.wrStart + 7) := by and_intros <;> decide

/-- A sample that is stored, and one that is not. -/
theorem witness_PanelBitIsSampledAtTSample :
    (let s := machine { ready with clkQ := false, pBits := 16 } []
     s.cfg.wf = true ∧ s.dev.clkSeen = true ∧ s.dev.clkQ = false ∧ ([] : List Bool).length + 1 = s.cfg.tSample ∧
        s.dev.synced = true ∧ s.dev.pBits < s.cfg.maxBits) ∧
    (let s := machine { ready with clkQ := false, pBits := 17 } []
     ¬ s.dev.pBits < s.cfg.maxBits) := by and_intros <;> decide

theorem witness_ShortHalfLosesItsSample :
    let s := machine { ready with clkQ := false } []
    s.cfg.wf = true ∧ s.dev.clkSeen = true ∧ s.dev.clkQ = !true ∧ ([] : List Bool).length + 1 ≤ s.cfg.tSample := by
  and_intros <;> decide

theorem witness_BoundaryFiresAfterTEof :
    let s := machine { ready with clkQ := false } []
    s.cfg.wf = true ∧ s.dev.clkSeen = true ∧ s.dev.clkQ = false ∧ [true, true].length = s.cfg.tEof := by
  and_intros <;> decide

theorem witness_DisconnectFiresOnceAfterTDisc :
    let s := machine { ready with clkQ := false } []
    s.cfg.wf = true ∧ s.dev.clkSeen = true ∧ s.dev.clkQ = !true ∧
      [true, true, true, true].length = s.cfg.tDisc := by and_intros <;> decide

theorem witness_ResetMeetsTheInvariants : small.wf = true ∧ Config.default.wf = true := by and_intros <;> decide

theorem witness_EveryStepKeepsTheInvariants :
    Inv (machine queued [.tick false true]).cfg (machine queued [.tick false true]).dev ∧
      ∃ t, step (machine queued [.tick false true]) = .next t :=
  ⟨queued_inv, _, rfl⟩

theorem witness_CountersFitTheirWidths : small.wf = true ∧ Inv small blank ∧ Inv small queued :=
  ⟨by decide, blank_inv, queued_inv⟩

/-- `queued` in a low half, `idle` ticks after the falling edge, the sample still to come if `armed`. -/
def lowHalf (armed : Bool) (idle : Nat) : Device :=
  { queued with clkQ := false, sampArmed := armed, sampCnt := if armed then idle else 1, idleCnt := idle }

/-- A sample due in a low half meets the invariants, and so does a silence due in one. -/
theorem lowHalf_inv : ∀ p ∈ [(true, 0), (false, 4)], Inv small (lowHalf p.1 p.2) := by
  intro p hp
  have hl : ∀ f ∈ (lowHalf p.1 p.2).liveFrames small, FrameOk small f := by
    intro f hf
    have h : (lowHalf p.1 p.2).liveFrames small = [⟨[0x27#8, 0#8, 0x27#8], 17, 3⟩] := rfl
    rw [h, List.mem_singleton] at hf
    subst hf
    constructor <;> decide
  have h : p = (true, 0) ∨ p = (false, 4) := by simpa using hp
  rcases h with rfl | rfl
  all_goals
    refine ⟨?_, ?_, hl, by decide, by decide, by decide, blank_assembled, blank_assembled, ?_, ?_, ?_⟩ <;>
      constructor <;> decide

/-- A boundary due in a high half meets the invariants. -/
theorem assembled_inv : Inv small assembled := by
  have hp : Assembled [0x05#8, 0#8, 0x81#8] 17 := by
    refine ⟨fun j hj => ?_, by decide⟩
    obtain ⟨k, rfl⟩ := Nat.exists_eq_add_of_lt hj
    rw [show byteIndex 17 + k + 1 = k + 4 from by rw [show byteIndex 17 = 3 from rfl]; omega]
    rfl
  have hl : ∀ f ∈ assembled.liveFrames small, FrameOk small f := by
    intro f hf
    have h : assembled.liveFrames small = [] := rfl
    rw [h] at hf
    exact absurd hf List.not_mem_nil
  refine ⟨assembled_shape, ?_, hl, by decide, by decide, by decide, hp, blank_assembled, ?_, ?_, ?_⟩ <;>
    constructor <;> decide

/-- A sample due in a low half, a silence due in one, and a boundary due in a high half. -/
theorem witness_NoTwoTimersFireTogether :
    small.wf = true ∧
    (Inv small (lowHalf true 0) ∧ (lowHalf true 0).sampArmed = true ∧ (lowHalf true 0).sampCnt + 1 = small.tSample) ∧
    (Inv small (lowHalf false 4) ∧ (lowHalf false 4).idleCnt = small.tDisc) ∧
    (Inv small assembled ∧ assembled.clkQ = true ∧ assembled.highCnt = small.tEof) :=
  ⟨by decide, ⟨lowHalf_inv (true, 0) (by simp), rfl, rfl⟩, ⟨lowHalf_inv (false, 4) (by simp), rfl⟩,
    assembled_inv, rfl, rfl⟩

/-- A tick that ends a periodic frame with its filter slot valid and a request held, so that every clause about
`f_valid`, `q_len` and the request has something to say. -/
theorem witness_TicksNeverWriteHostElements :
    let v := { assembled with filt := [⟨true, [0x05#8, 0#8, 0x80#8]⟩], wrPending := true, wrPattern := 0xAF#8 }
    (machine v [.tick true true]).inputs = .tick true true :: [] ∧
      v.filt[0]? = some (FilterSlot.mk true [0x05#8, 0#8, 0x80#8]) ∧
      ∃ t, step (machine v [.tick true true]) = .next t ∧ t.dev.qLen = 1 ∧ t.dev.wrPattern = 0xAF#8 ∧
        t.dev.filt = [⟨true, [0x05#8, 0#8, 0x81#8]⟩] :=
  ⟨rfl, rfl, _, rfl, rfl, rfl, rfl⟩

/-- FILTCLR on a valid filter slot: the bytes stay and the slot is invalid. -/
theorem witness_HostAccessesNeverWriteBusElements :
    let v := { queued with filt := [⟨true, [0x05#8, 0#8, 0x80#8]⟩] }
    (machine v [.host true 0x03#6 0x03#8]).inputs = .host true 0x03#6 0x03#8 :: [] ∧
      ∃ t, step (machine v [.host true 0x03#6 0x03#8]) = .next t ∧
        t.dev.filt = [⟨false, [0x05#8, 0#8, 0x80#8]⟩] :=
  ⟨rfl, _, rfl, rfl⟩

end Sys2Proof.Tests
end

section
/-! The refusal of a configuration outside the spec (00_scope.md R4, R5, R9). -/

namespace Sys2Proof.Machine

/-- The constraint on the tick period (00_scope.md R4), the one that `Config.wf_bounds` leaves out. -/
theorem Config.wf_tickNs_pos {c : Config} (h : c.wf = true) : 0 < c.tickNs := by
  simp only [Config.wf, Config.constraintsOk, Bool.and_eq_true, decide_eq_true_eq] at h
  tauto

/-- Classic is refused by name, whether or not the constraints hold (00_scope.md R9). -/
theorem configRefusal_of_classic {c : Config} (h : c.dialect = .classic) :
    configRefusal c = some .classicDialect := if_pos h

/-- With the PowerSeries dialect, what is not well formed breaks a constraint (00_scope.md R5). -/
theorem configRefusal_of_not_wf {c : Config} (hd : c.dialect = .powerSeries) (h : ¬ c.wf = true) :
    configRefusal c = some .badConfiguration := by
  have hc : ¬ c.constraintsOk = true := by simpa [Config.wf, hd] using h
  simp [configRefusal, hd, hc]

/-- A refused configuration is refused by every step, whatever the device and the pending inputs (log 15). -/
theorem step_of_configRefusal {s : State} {r : Refusal} (h : configRefusal s.cfg = some r) :
    step s = .refused r := by
  simp only [step, h]

/-- Settles O8: each broken constraint contradicts the bound that well-formedness gives for it. -/
theorem badConfigurationIsRefused : Obligations.BadConfigurationIsRefused := by
  intro s
  refine ⟨fun hd => step_of_configRefusal (configRefusal_of_classic hd), fun hd hbad => ?_⟩
  refine step_of_configRefusal (configRefusal_of_not_wf hd fun hwf => ?_)
  have htick := Config.wf_tickNs_pos hwf
  obtain ⟨hsample, heof, hdisc, hread, hread', hcap, hcap', hmin, hmin', hnodup⟩ := Config.wf_bounds hwf
  obtain ⟨hpart, hpart', -, hslots, halarm⟩ := Config.wf_slots hwf
  simp only [Config.maxBits] at hmin' hslots halarm
  have hslot : ¬ ∃ e ∈ s.cfg.slots, e.start < 9 ∨ 8 * s.cfg.readSize - 7 < e.start + 8 := by
    rintro ⟨e, he, hout⟩
    have := hslots e he
    omega
  simp only [hnodup, hslot, not_true_eq_false, false_or] at hbad
  omega

end Sys2Proof.Machine
end

section
/-! What the host reads back (10_state.md R45 to R56). -/

namespace Sys2Proof.Machine

/-! ### The front window -/

theorem Device.front_of_empty {v : Device} (h : v.qLen = 0) : v.front = none := if_pos h

theorem Device.front_of_getElem? {v : Device} {f : FrameSlot} (h : 0 < v.qLen) (hf : v.slots[v.qTail]? = some f) :
    v.front = some f := by
  simp [Device.front, Device.slotAt, List.getD, hf, Nat.ne_of_gt h]

/-- Settles O34: each window is one read of `Device.front`, whose two cases are the statement's. -/
theorem frontWindowReadsTheFrontSlot : Obligations.FrontWindowReadsTheFrontSlot := by
  intro s i
  have hbits : exec .hrFrontBits s = .next (s.answer s.dev.frontBits) := rfl
  have hbytes : exec .hrFrontBytes s = .next (s.answer s.dev.frontBytes) := rfl
  have hdata : exec (.hrFrontData i) s = .next (s.answer (s.dev.frontData s.cfg i.toNat)) := rfl
  simp only [hbits, hbytes, hdata, Device.frontBits, Device.frontBytes, Device.frontData]
  refine ⟨fun hempty => ?_, fun f hlen hf => ?_⟩
  · rw [Device.front_of_empty hempty]
    exact ⟨rfl, rfl, rfl⟩
  · rw [Device.front_of_getElem? hlen hf]
    exact ⟨rfl, rfl, rfl⟩

/-! ### Read after write -/

/-- A write and the read after it, from the meanings of the two rows. -/
theorem State.runInputs_write_read {s t u : State} {addr : BitVec 6} {b : Byte} {w r : Instr} (hwf : s.cfg.wf = true)
    (hw : decodeHost (hostSelect true addr) b = w) (hr : decodeHost (hostSelect false addr) 0x00#8 = r)
    (ht : exec w { s with inputs := [.host false addr 0x00#8], out := Output.none } = .next t)
    (hu : exec r { t with inputs := [], out := Output.none } = .next u) :
    s.runInputs [.host true addr b, .host false addr 0x00#8] = .next { u with inputs := [] } := by
  obtain ⟨t', ht', hcfg, -⟩ :=
    exec_keeps_machine w { s with inputs := [.host false addr 0x00#8], out := Output.none }
  cases ht.symm.trans ht'
  have hselw : s.dev.selects (.host true addr b) = some w := congrArg some hw
  have hselr : t.dev.selects (.host false addr 0x00#8) = some r := congrArg some hr
  have hwf' : t.cfg.wf = true := by rw [hcfg]; exact hwf
  rw [State.runInputs_cons hwf hselw ht, State.runInputs_cons hwf' hselr hu, State.runInputs_nil]

/-- A byte's two lowest bits with zeros above are the byte under the mask 0x03. -/
theorem byteOfBits_low_two (b : Byte) :
    byteOfBits false false false false false false (b.getLsbD 1) (b.getLsbD 0) = b &&& 0x03#8 := by
  decide +revert

/-- CTRL shows its two implemented bits of the byte last written (10_state.md R45). -/
theorem Device.ctrlByte_ctrlWrite (v : Device) (b : Byte) : (v.ctrlWrite b).ctrlByte = b &&& 0x03#8 :=
  byteOfBits_low_two b

/-- Settles O40: each of the three registers is written by one row and shown by another. -/
theorem readAfterWriteOfHostRegisters : Obligations.ReadAfterWriteOfHostRegisters := by
  intro s b hwf
  refine ⟨⟨_, State.runInputs_write_read (w := .hwCtrl b) (r := .hrCtrl) hwf rfl rfl rfl rfl, ?_⟩,
    ⟨_, State.runInputs_write_read (w := .hwWkey b) (r := .hrWkey) hwf rfl rfl rfl rfl, rfl⟩,
    ⟨_, State.runInputs_write_read (w := .hwWpart b) (r := .hrWpart) hwf rfl rfl rfl rfl, rfl⟩⟩
  exact congrArg some (s.dev.ctrlByte_ctrlWrite b)

end Sys2Proof.Machine
end

section
/-! The pieces of the state that the invariants of 10_state.md R59 speak of, and what each shared operation does to
each piece. -/

namespace Sys2Proof.Machine

/-! ### Reading a byte array after an update -/

theorem byteAt_set (data : List Byte) (i j : Nat) (x : Byte) :
    byteAt (data.set i x) j = if i = j ∧ i < data.length then x else byteAt data j := by
  unfold byteAt
  simp only [List.getD_eq_getElem?_getD, List.getElem?_set]
  by_cases hij : i = j
  · subst hij
    by_cases hi : i < data.length <;> simp [hi]
  · simp [hij]

theorem byteAt_set_ne {data : List Byte} {i j : Nat} (x : Byte) (h : i ≠ j) :
    byteAt (data.set i x) j = byteAt data j := by
  rw [byteAt_set, if_neg (fun hc => h hc.1)]

/-! ### The assembled stream (30_encoding.md R102, R103) -/

/-- Either the next wire bit goes to the same byte, which then holds one bit more, or it opens a later byte. -/
theorem byteIndex_succ_cases (n : Nat) :
    (byteIndex (n + 1) = byteIndex n ∧ bitsInByte (n + 1) = bitsInByte n + 1) ∨ byteIndex n < byteIndex (n + 1) := by
  unfold byteIndex bitsInByte
  split_ifs <;> omega

/-- Shifting a bit in at most doubles the byte and adds one. -/
theorem shiftIn_toNat_le (x : Byte) (b : Bool) : (shiftIn x b).toNat ≤ 2 * x.toNat + 1 := by
  decide +revert

theorem Assembled.zeroBytes (c : Config) (n : Nat) : Assembled (zeroBytes c) n where
  above j _ := byteAt_zeroBytes c j
  partialByte := by simp

/-- R59 (iii) is kept by one more wire bit. -/
theorem Assembled.appendBit {data : List Byte} {n : Nat} (h : Assembled data n) (b : Bool) :
    Assembled (appendBit data n b) (n + 1) := by
  unfold Machine.appendBit
  rcases byteIndex_succ_cases n with ⟨hidx, hbits⟩ | hlt
  · refine ⟨fun j hj => ?_, ?_⟩
    · rw [byteAt_set_ne _ (by omega), h.above j (by omega)]
    · rw [hidx, hbits, byteAt_set, Nat.pow_succ]
      have hshift := shiftIn_toNat_le (byteAt data (byteIndex n)) b
      have hpart := h.partialByte
      split_ifs <;> omega
  · refine ⟨fun j hj => ?_, ?_⟩
    · rw [byteAt_set_ne _ (by omega), h.above j (by omega)]
    · rw [byteAt_set_ne _ (by omega), h.above _ hlt]
      exact Nat.two_pow_pos _

/-! ### The live frames of the FIFO (10_state.md R34) -/

/-- ENQUEUE with room puts the new frame behind the live ones (41_fifo_checksum.md R182). -/
theorem Device.liveFrames_pushFrame {c : Config} {v : Device} (hs : v.slots.length = c.queueCap) (hq : QueueOk c v)
    (hroom : v.qLen ≠ c.queueCap) (data : List Byte) (n : Nat) :
    (v.pushFrame c data n).liveFrames c = v.liveFrames c ++ [⟨data, n, byteCount n⟩] := by
  obtain ⟨hhead, htail, hlen⟩ := hq
  have hnew : (v.pushFrame c data n).slotAt (v.liveIndex c v.qLen) = ⟨data, n, byteCount n⟩ := by
    have hlt : v.qHead < v.slots.length := by rw [hhead, hs]; exact Nat.mod_lt _ (by omega)
    have hidx : v.liveIndex c v.qLen = v.qHead := hhead.symm
    simp [Device.slotAt, Device.pushFrame, hidx, List.getD, hlt]
  have hold : ∀ i < v.qLen, (v.pushFrame c data n).slotAt (v.liveIndex c i) = v.slotAt (v.liveIndex c i) := by
    intro i hi
    have hne : v.qHead ≠ v.liveIndex c i := by
      rw [hhead]
      intro heq
      have hmod := Nat.ModEq.add_left_cancel' v.qTail heq
      have := Nat.ModEq.eq_of_lt_of_lt hmod (by omega) (by omega)
      omega
    simp [Device.slotAt, Device.pushFrame, List.getD, List.getElem?_set_ne hne]
  show (List.range (v.qLen + 1)).map (fun i => (v.pushFrame c data n).slotAt (v.liveIndex c i)) = _
  rw [List.range_succ, List.map_append, List.map_singleton, hnew]
  exact congrArg (· ++ _) (List.map_congr_left fun i hi => hold i (List.mem_range.mp hi))

/-- POP takes the oldest live frame away (41_fifo_checksum.md R184). -/
theorem Device.liveFrames_eq_cons_pop {c : Config} {v : Device} (hq : QueueOk c v) (hlen : 0 < v.qLen) :
    v.liveFrames c = v.slotAt v.qTail :: (v.pop c).liveFrames c := by
  rcases v.pop_cases c with ⟨h0, -⟩ | ⟨-, hpop⟩
  · omega
  · have hsucc : List.range v.qLen = 0 :: (List.range (v.qLen - 1)).map Nat.succ := by
      rw [← List.range_succ_eq_map, Nat.sub_add_cancel hlen]
    have hidx : ∀ i, ((v.qTail + 1) % c.queueCap + i) % c.queueCap = (v.qTail + (i + 1)) % c.queueCap := by
      intro i
      rw [Nat.mod_add_mod, Nat.add_assoc, Nat.add_comm 1 i]
    simp [Device.liveFrames, Device.liveIndex, hpop, hsucc, hidx, Device.slotAt, Nat.mod_eq_of_lt hq.tail]

theorem QueueOk.pushFrame {c : Config} {v : Device} (hq : QueueOk c v) (hroom : v.qLen ≠ c.queueCap)
    (data : List Byte) (n : Nat) : QueueOk c (v.pushFrame c data n) := by
  obtain ⟨hhead, htail, hlen⟩ := hq
  refine ⟨?_, htail, ?_⟩
  · show (v.qHead + 1) % c.queueCap = (v.qTail + (v.qLen + 1)) % c.queueCap
    rw [hhead, Nat.mod_add_mod, Nat.add_assoc]
  · show v.qLen + 1 ≤ c.queueCap
    omega

theorem QueueOk.pop {c : Config} {v : Device} (hq : QueueOk c v) : QueueOk c (v.pop c) := by
  obtain ⟨hhead, htail, hlen⟩ := hq
  rcases v.pop_cases c with ⟨-, hpop⟩ | ⟨hpos, hpop⟩
  · rw [hpop]
    exact ⟨hhead, htail, hlen⟩
  · rw [hpop]
    refine ⟨?_, Nat.mod_lt _ (by omega), ?_⟩
    · show v.qHead = ((v.qTail + 1) % c.queueCap + (v.qLen - 1)) % c.queueCap
      rw [hhead, Nat.mod_add_mod]
      congr 1
      omega
    · show v.qLen - 1 ≤ c.queueCap
      omega

/-! ### What EOF writes outside the FIFO and the filter -/

theorem Device.filterUpdate_frame (c : Config) (v : Device) : ∃ f, v.filterUpdate c = { v with filt := f } := by
  rcases v.filterUpdate_cases c with ⟨-, h⟩ | ⟨k, -, -, h⟩ <;> exact ⟨_, h⟩

theorem State.enqueue_frame (s : State) (data : List Byte) (n : Nat) :
    ∃ q h l o, (s.enqueue data n).dev = { s.dev with slots := q, qHead := h, qLen := l, overflow := o } := by
  rcases s.enqueue_cases data n with ⟨-, h⟩ | ⟨-, h⟩ <;> rw [h] <;> exact ⟨_, _, _, _, rfl⟩

theorem Device.moduleSnapshot_frame (v : Device) :
    ∃ d n k w, v.moduleSnapshot = { v with msData := d, msBits := n, msCmd := k, msValid := w } := by
  rcases v.moduleSnapshot_cases with ⟨-, -, h⟩ | ⟨-, h⟩ <;> exact ⟨_, _, _, _, h⟩

/-- A delivered frame goes to the filter, the FIFO and the module snapshot, and nowhere else (40_sampler.md R158). -/
theorem State.deliverFrame_frame (s : State) :
    ∃ f q h l o d n k w, s.deliverFrame.dev =
      { s.dev with
        filt := f, slots := q, qHead := h, qLen := l, overflow := o, msData := d, msBits := n, msCmd := k
        msValid := w } := by
  obtain ⟨f, hf⟩ := s.dev.filterUpdate_frame s.cfg
  rcases s.deliverFrame_cases with ⟨-, hd⟩ | ⟨-, hd⟩
  · obtain ⟨d, n, k, w, hm⟩ := (s.dev.filterUpdate s.cfg).moduleSnapshot_frame
    rw [hd, State.withDev_dev, hm, hf]
    exact ⟨_, _, _, _, _, _, _, _, _, rfl⟩
  · simp only [hd, State.withDev_dev]
    obtain ⟨q, h, l, o, hq⟩ := (s.withDev (s.dev.filterUpdate s.cfg)).enqueue_frame (s.dev.filterUpdate s.cfg).pData
      (s.dev.filterUpdate s.cfg).pBits
    rw [hq, State.withDev_dev, hf]
    obtain ⟨d, n, k, w, hm⟩ := Device.moduleSnapshot_frame
      { s.dev with filt := f, slots := q, qHead := h, qLen := l, overflow := o }
    rw [hm]
    exact ⟨_, _, _, _, _, _, _, _, _, rfl⟩

/-- EOF in each of its arms: synchronised, frame ended, and only the filter, the FIFO and the module snapshot touched
besides (40_sampler.md R158). -/
theorem State.eof_frame (s : State) :
    ∃ f q h l o d n k w, s.eof.dev = Device.endFrame s.cfg
      { s.dev with
        synced := true, filt := f, slots := q, qHead := h, qLen := l, overflow := o, msData := d, msBits := n
        msCmd := k, msValid := w } := by
  rcases s.eof_cases with ⟨-, h⟩ | ⟨hs, -, h⟩ | ⟨hs, -, h⟩
  · rw [h]
    exact ⟨_, _, _, _, _, _, _, _, _, rfl⟩
  · rw [h, ← hs]
    exact ⟨_, _, _, _, _, _, _, _, _, rfl⟩
  · obtain ⟨f, q, h', l, o, d, n, k, w, hd⟩ := s.deliverFrame_frame
    rw [h, State.withDev_dev, hd, ← hs]
    exact ⟨_, _, _, _, _, _, _, _, _, rfl⟩

/-! ### What DISC leaves -/

/-- DISC's flags, before its clearings (40_sampler.md R164). -/
def Device.disconnected (v : Device) : Device :=
  { v with connected := false, connChanged := v.connChanged || v.connected }

/-- DISC with the clock high abandons the write; with the clock low it drops the partial frame and the synchronisation
too (40_sampler.md R164). -/
theorem State.disc_dev_cases (s : State) :
    (s.dev.clkQ = true ∧ s.disc.dev = s.dev.disconnected.abandonWrite) ∨
    (s.dev.clkQ = false ∧
      s.disc.dev = { s.dev.disconnected.abandonWrite.clearAssembly s.cfg with synced := false }) := by
  rw [State.disc_dev]
  exact Device.silence_cases s.cfg s.dev.disconnected

/-! ### The clock history and the three timers (10_state.md R27 to R30) -/

/-- The elements that the ticks count in. -/
structure Timers where
  clkSeen : Bool
  clkQ : Bool
  sampArmed : Bool
  sampCnt : Nat
  highCnt : Nat
  idleCnt : Nat

def Device.timers (v : Device) : Timers := ⟨v.clkSeen, v.clkQ, v.sampArmed, v.sampCnt, v.highCnt, v.idleCnt⟩

/-- SampleTimer on the timers alone (40_sampler.md R146). -/
def Timers.sample (c : Config) (t : Timers) : Timers :=
  { t with
    sampCnt := if t.sampArmed then t.sampCnt + 1 else t.sampCnt
    sampArmed := t.sampArmed && decide (t.sampCnt + 1 ≠ c.tSample) }

/-- HighTimer on the timers alone (40_sampler.md R148). -/
def Timers.high (c : Config) (t : Timers) : Timers :=
  { t with highCnt := if t.highCnt ≤ c.tEof then t.highCnt + 1 else t.highCnt }

/-- IdleTimer on the timers alone (40_sampler.md R149). -/
def Timers.idle (c : Config) (t : Timers) : Timers :=
  { t with idleCnt := if t.idleCnt ≤ c.tDisc then t.idleCnt + 1 else t.idleCnt }

theorem Timers.high_of_le {c : Config} {t : Timers} (h : t.highCnt ≤ c.tEof) :
    t.high c = { t with highCnt := t.highCnt + 1 } := by
  simp [Timers.high, h]

theorem Timers.high_of_lt {c : Config} {t : Timers} (h : c.tEof < t.highCnt) : t.high c = t := by
  simp [Timers.high, Nat.not_le.mpr h]

theorem Timers.idle_of_le {c : Config} {t : Timers} (h : t.idleCnt ≤ c.tDisc) :
    t.idle c = { t with idleCnt := t.idleCnt + 1 } := by
  simp [Timers.idle, h]

theorem Timers.idle_of_lt {c : Config} {t : Timers} (h : c.tDisc < t.idleCnt) : t.idle c = t := by
  simp [Timers.idle, Nat.not_le.mpr h]

theorem Device.sampleTimer_timers (c : Config) (v : Device) : (v.sampleTimer c).timers = v.timers.sample c := by
  unfold Device.sampleTimer Timers.sample
  cases h : v.sampArmed <;> simp [Device.timers, h]

theorem Device.sampleP_timers (c : Config) (v : Device) (l : Bool) : (v.sampleP c l).timers = v.timers := by
  rcases v.sampleP_cases c l with ⟨-, -, h⟩ | ⟨-, h⟩
  · rw [h]
    rfl
  · rw [h]

theorem Device.sampleM_timers (c : Config) (v : Device) (l : Bool) : (v.sampleM c l).timers = v.timers := by
  rcases v.sampleM_cases c l with ⟨-, -, -, h⟩ | ⟨-, -, -, h⟩ | ⟨-, h⟩ <;> rw [h] <;> rfl

@[simp] theorem Device.holdSampleP_timers (c : Config) (v : Device) (l : Bool) :
    (v.holdSampleP c l).timers = v.timers.sample c := by
  unfold Device.holdSampleP
  split <;> simp only [Device.sampleP_timers, Device.sampleTimer_timers]

theorem Device.holdSampleP_clkQ (c : Config) (v : Device) (l : Bool) : (v.holdSampleP c l).clkQ = v.clkQ :=
  congrArg Timers.clkQ (v.holdSampleP_timers c l)

@[simp] theorem Device.holdSampleM_timers (c : Config) (v : Device) (l : Bool) :
    (v.holdSampleM c l).timers = v.timers.sample c := by
  unfold Device.holdSampleM
  split <;> simp only [Device.sampleM_timers, Device.sampleTimer_timers]

@[simp] theorem Device.writeComplete_timers (v : Device) : v.writeComplete.timers = v.timers := by
  rcases v.writeComplete_cases with ⟨-, -, h⟩ | ⟨-, h⟩ <;> rw [h] <;> rfl

@[simp] theorem Device.writerEvaluate_timers (v : Device) : v.writerEvaluate.timers = v.timers := by
  obtain ⟨a, l, d, h⟩ := v.writerEvaluate_frame
  rw [h]
  rfl

theorem Device.latchClock_timers (v : Device) (b : Bool) : (v.latchClock b).timers = { v.timers with clkQ := b } := rfl

theorem Device.edgeRise_timers (v : Device) : v.edgeRise.timers = ⟨v.clkSeen, v.clkQ, true, 0, 0, 0⟩ := by
  rcases v.edgeRise_cases with ⟨-, h⟩ | ⟨-, h⟩
  · rw [h]
    rfl
  · rw [h, Device.writeComplete_timers]
    rfl

theorem Device.edgeFall_timers (v : Device) :
    v.edgeFall.timers = ⟨v.clkSeen, v.clkQ, true, 0, v.highCnt, 0⟩ := by
  rw [Device.edgeFall, Device.writerEvaluate_timers]
  rfl

theorem State.eof_timers (s : State) : s.eof.dev.timers = s.dev.timers := by
  obtain ⟨f, q, h, l, o, d, n, k, w, heof⟩ := s.eof_frame
  rw [heof]
  rfl

theorem State.disc_timers (s : State) : s.disc.dev.timers = s.dev.timers := by
  rcases s.disc_dev_cases with ⟨-, h⟩ | ⟨-, h⟩
  · rw [h]
    rfl
  · rw [h]
    rfl

@[simp] theorem State.highTimer_timers (s : State) : s.highTimer.dev.timers = s.dev.timers.high s.cfg := by
  rcases s.highTimer_cases with ⟨hgt, h⟩ | ⟨hlt, h⟩ | ⟨heq, h⟩
  · rw [h, Timers.high_of_lt (t := s.dev.timers) hgt]
  · rw [h, Timers.high_of_le (t := s.dev.timers) (Nat.le_of_lt hlt)]
    rfl
  · rw [h, State.eof_timers, Timers.high_of_le (t := s.dev.timers) (Nat.le_of_eq heq)]
    rfl

@[simp] theorem State.idleTimer_timers (s : State) : s.idleTimer.dev.timers = s.dev.timers.idle s.cfg := by
  rcases s.idleTimer_cases with ⟨hgt, h⟩ | ⟨hlt, h⟩ | ⟨heq, h⟩
  · rw [h, Timers.idle_of_lt (t := s.dev.timers) hgt]
  · rw [h, Timers.idle_of_le (t := s.dev.timers) (Nat.le_of_lt hlt)]
    rfl
  · rw [h, State.disc_timers, Timers.idle_of_le (t := s.dev.timers) (Nat.le_of_eq heq)]
    rfl

theorem State.tickHoldLow_timers (s : State) (l : Bool) :
    (s.tickHoldLow l).dev.timers = (s.dev.timers.sample s.cfg).idle s.cfg := by
  simp [State.tickHoldLow]

theorem State.tickHoldHigh_timers (s : State) (l : Bool) :
    (s.tickHoldHigh l).dev.timers = ((s.dev.timers.sample s.cfg).high s.cfg).idle s.cfg := by
  simp [State.tickHoldHigh]

/-- With the clock unchanged the last line of `Tick` writes what is there (40_sampler.md R141). -/
theorem Device.latchClock_of_clkQ {v : Device} {b : Bool} (h : v.clkQ = b) : v.latchClock b = v := by
  subst h
  rfl

/-! ### WriterEvaluate on an open window -/

/-- An open window presents its next bit at every falling edge (42_writer.md R206). -/
theorem Device.writerEvaluate_of_active {v : Device} (hp : v.wrPending = true) (hv : v.vkpEn = true)
    (hs : v.synced = true) (ha : v.wrActive = true) (hlo : v.wrStart ≤ v.pBits) (hhi : v.pBits ≤ v.wrStart + 7) :
    v.writerEvaluate = v.presentBit (v.pBits - v.wrStart) := by
  simp [Device.writerEvaluate, hp, hv, hs, ha, hlo, hhi]

end Sys2Proof.Machine
end

section
/-! `Inv` in four independent parts, and how each shared operation keeps each part. -/

namespace Sys2Proof.Machine

/-! ### What is stored: the arrays, the FIFO, the two streams -/

/-- The part of `Inv` that speaks of stored frames and bytes: R59 (i), (ii), (iii) and (viii). -/
structure StoreOk (c : Config) (v : Device) : Prop where
  shape : Shape c v
  queue : QueueOk c v
  live : ∀ f ∈ v.liveFrames c, FrameOk c f
  pBits : v.pBits ≤ c.maxBits
  mBits : v.mBits ≤ c.maxBits
  msBits : v.msBits ≤ c.maxBits
  panelStream : Assembled v.pData v.pBits
  moduleStream : Assembled v.mData v.mBits

theorem Inv.store {c : Config} {v : Device} (h : Inv c v) : StoreOk c v := { h with }

theorem Inv.of_parts {c : Config} {v : Device} (hs : StoreOk c v) (hw : WriterOk c v) (ht : TimersOk c v)
    (hq : QuietOk c v) : Inv c v := { hs with writer := hw, timers := ht, quiet := hq }

/-- The block with everything blanked that `StoreOk` does not speak of. -/
def Device.store (v : Device) : Device :=
  { v with
    clkSeen := false, clkQ := false, sampArmed := false, sampCnt := 0, highCnt := 0, idleCnt := 0, synced := false
    mDetect := false, overflow := false, connected := false, connChanged := false, msCmd := 0x00#8, msValid := false
    wrPending := false, wrPattern := 0x00#8, wrStart := 0, wrCmd := 0x00#8, wrAny := false, wrAlarm := false
    wrSecond := false, wrActive := false, wrLast := false, driveLow := false, vkpEn := false, modEn := false
    wkey := 0x00#8, wpart := 0x00#8 }

theorem storeOk_store {c : Config} {v : Device} : StoreOk c v.store ↔ StoreOk c v :=
  ⟨fun h => { h with shape := { h.shape with }, queue := { h.queue with } },
    fun h => { h with shape := { h.shape with }, queue := { h.queue with } }⟩

/-- `StoreOk` is kept by whatever leaves the stored elements alone. -/
theorem StoreOk.congr {c : Config} {v w : Device} (h : StoreOk c v) (hvw : w.store = v.store) : StoreOk c w :=
  storeOk_store.mp (hvw ▸ storeOk_store.mpr h)

@[simp] theorem Device.edgeCommon_store (v : Device) : v.edgeCommon.store = v.store := rfl

@[simp] theorem Device.risingRelease_store (v : Device) : v.risingRelease.store = v.store := rfl

@[simp] theorem Device.abandonWrite_store (v : Device) : v.abandonWrite.store = v.store := rfl

@[simp] theorem Device.latchClock_store (v : Device) (b : Bool) : (v.latchClock b).store = v.store := rfl

@[simp] theorem Device.writeComplete_store (v : Device) : v.writeComplete.store = v.store := by
  rcases v.writeComplete_cases with ⟨-, -, h⟩ | ⟨-, h⟩ <;> rw [h] <;> rfl

@[simp] theorem Device.writerEvaluate_store (v : Device) : v.writerEvaluate.store = v.store := by
  obtain ⟨a, l, d, h⟩ := v.writerEvaluate_frame
  rw [h]
  rfl

@[simp] theorem Device.edgeRise_store (v : Device) : v.edgeRise.store = v.store := by
  rcases v.edgeRise_cases with ⟨-, h⟩ | ⟨-, h⟩ <;> simp [h]

@[simp] theorem Device.edgeFall_store (v : Device) : v.edgeFall.store = v.store := by simp [Device.edgeFall]

@[simp] theorem Device.ctrlWrite_store (v : Device) (b : Byte) : (v.ctrlWrite b).store = v.store := by
  rcases v.ctrlWrite_cases b with ⟨-, -, h⟩ | ⟨-, h⟩ <;> rw [h] <;> rfl

@[simp] theorem Device.loadKey_store (c : Config) (v : Device) (k : Key) : (v.loadKey c k).store = v.store := by
  rcases v.loadKey_cases c k with ⟨-, h⟩ | ⟨-, h⟩ <;> rw [h] <;> rfl

theorem StoreOk.reset {c : Config} (hcap : 1 ≤ c.queueCap) : StoreOk c (Device.reset c) where
  shape :=
    { pData := List.length_replicate
      mData := List.length_replicate
      msData := List.length_replicate
      filtLength := List.length_replicate
      filtData := fun e he => by rw [List.eq_of_mem_replicate he]; exact List.length_replicate
      slotsLength := List.length_replicate
      slotsData := fun f hf => by rw [List.eq_of_mem_replicate hf]; exact List.length_replicate }
  queue := ⟨(Nat.zero_mod _).symm, hcap, Nat.zero_le _⟩
  live := fun f hf => absurd hf List.not_mem_nil
  pBits := Nat.zero_le _
  mBits := Nat.zero_le _
  msBits := Nat.zero_le _
  panelStream := Assembled.zeroBytes c 0
  moduleStream := Assembled.zeroBytes c 0

theorem StoreOk.clearAssembly {c : Config} {v : Device} (h : StoreOk c v) : StoreOk c (v.clearAssembly c) :=
  { h with
    shape := { h.shape with pData := List.length_replicate, mData := List.length_replicate }
    queue := { h.queue with }
    pBits := Nat.zero_le _
    mBits := Nat.zero_le _
    panelStream := Assembled.zeroBytes c 0
    moduleStream := Assembled.zeroBytes c 0 }

theorem StoreOk.sampleP {c : Config} {v : Device} (h : StoreOk c v) (l : Bool) : StoreOk c (v.sampleP c l) := by
  rcases v.sampleP_cases c l with ⟨-, hlt, heq⟩ | ⟨-, heq⟩ <;> rw [heq]
  · exact
      { h with
        shape := { h.shape with pData := (appendBit_length _ _ _).trans h.shape.pData }
        queue := { h.queue with }
        pBits := hlt
        panelStream := h.panelStream.appendBit l }
  · exact h

theorem StoreOk.sampleM {c : Config} {v : Device} (h : StoreOk c v) (l : Bool) : StoreOk c (v.sampleM c l) := by
  rcases v.sampleM_cases c l with ⟨-, -, hlt, heq⟩ | ⟨-, -, -, heq⟩ | ⟨-, heq⟩ <;> rw [heq]
  · exact
      { h with
        shape := { h.shape with mData := (appendBit_length _ _ _).trans h.shape.mData }
        queue := { h.queue with }
        mBits := hlt
        moduleStream := h.moduleStream.appendBit l }
  · exact h.congr rfl
  · exact h

theorem StoreOk.holdSampleP {c : Config} {v : Device} (h : StoreOk c v) (l : Bool) :
    StoreOk c (v.holdSampleP c l) := by
  rcases v.holdSampleP_cases c l with ⟨-, heq⟩ | ⟨-, -, heq⟩ | ⟨-, -, heq⟩ <;> rw [heq]
  · exact h
  · exact h.congr rfl
  · have hfired : StoreOk c { v with sampCnt := v.sampCnt + 1, sampArmed := false } := h.congr rfl
    exact hfired.sampleP l

theorem StoreOk.holdSampleM {c : Config} {v : Device} (h : StoreOk c v) (l : Bool) :
    StoreOk c (v.holdSampleM c l) := by
  rcases v.holdSampleM_cases c l with ⟨-, heq⟩ | ⟨-, -, heq⟩ | ⟨-, -, heq⟩ <;> rw [heq]
  · exact h
  · exact h.congr rfl
  · have hfired : StoreOk c { v with sampCnt := v.sampCnt + 1, sampArmed := false } := h.congr rfl
    exact hfired.sampleM l

theorem StoreOk.filterUpdate {c : Config} {v : Device} (h : StoreOk c v) : StoreOk c (v.filterUpdate c) := by
  rcases v.filterUpdate_cases c with ⟨-, heq⟩ | ⟨k, -, -, heq⟩ <;> rw [heq]
  · exact h
  · have hdata : ∀ e ∈ v.filt.set k ⟨true, v.pData⟩, e.data.length = c.readSize := by
      intro e he
      rcases List.mem_or_eq_of_mem_set he with he | rfl
      · exact h.shape.filtData e he
      · exact h.shape.pData
    exact
      { h with
        shape := { h.shape with filtLength := List.length_set.trans h.shape.filtLength, filtData := hdata }
        queue := { h.queue with } }

/-- R59 (viii) holds of a stored frame since EOF stores it only when it is long enough (40_sampler.md R158). -/
theorem StoreOk.pushFrame {c : Config} {v : Device} (h : StoreOk c v) (hroom : v.qLen ≠ c.queueCap)
    (hmin : c.minFrameBits ≤ v.pBits) : StoreOk c (v.pushFrame c v.pData v.pBits) := by
  have hlive : ∀ f ∈ (v.pushFrame c v.pData v.pBits).liveFrames c, FrameOk c f := by
    intro f hf
    rw [Device.liveFrames_pushFrame h.shape.slotsLength h.queue hroom, List.mem_append, List.mem_singleton] at hf
    rcases hf with hf | rfl
    · exact h.live f hf
    · exact ⟨rfl, hmin, h.pBits⟩
  have hdata : ∀ f ∈ (v.pushFrame c v.pData v.pBits).slots, f.data.length = c.readSize := by
    intro f hf
    rcases List.mem_or_eq_of_mem_set hf with hf | rfl
    · exact h.shape.slotsData f hf
    · exact h.shape.pData
  exact
    { h with
      shape := { h.shape with slotsLength := List.length_set.trans h.shape.slotsLength, slotsData := hdata }
      queue := h.queue.pushFrame hroom _ _
      live := hlive }

theorem StoreOk.enqueue {s : State} (h : StoreOk s.cfg s.dev) (hmin : s.cfg.minFrameBits ≤ s.dev.pBits) :
    StoreOk s.cfg (s.enqueue s.dev.pData s.dev.pBits).dev := by
  rcases s.enqueue_cases s.dev.pData s.dev.pBits with ⟨-, heq⟩ | ⟨hroom, heq⟩ <;> rw [heq]
  · exact h.congr rfl
  · exact h.pushFrame hroom hmin

theorem StoreOk.moduleSnapshot {c : Config} {v : Device} (h : StoreOk c v) : StoreOk c v.moduleSnapshot := by
  rcases v.moduleSnapshot_cases with ⟨-, -, heq⟩ | ⟨-, heq⟩ <;> rw [heq]
  · exact { h with shape := { h.shape with msData := h.shape.mData }, queue := { h.queue with }, msBits := h.mBits }
  · exact h

theorem StoreOk.deliverFrame {s : State} (h : StoreOk s.cfg s.dev) (hmin : s.cfg.minFrameBits ≤ s.dev.pBits) :
    StoreOk s.cfg s.deliverFrame.dev := by
  rcases s.deliverFrame_cases with ⟨-, heq⟩ | ⟨-, heq⟩ <;> rw [heq]
  · exact h.filterUpdate.moduleSnapshot
  · have hmin' : s.cfg.minFrameBits ≤ (s.dev.filterUpdate s.cfg).pBits := by
      obtain ⟨f, hf⟩ := s.dev.filterUpdate_frame s.cfg
      rw [hf]
      exact hmin
    exact (StoreOk.enqueue (s := s.withDev (s.dev.filterUpdate s.cfg)) h.filterUpdate hmin').moduleSnapshot

theorem StoreOk.eof {s : State} (h : StoreOk s.cfg s.dev) : StoreOk s.cfg s.eof.dev := by
  rcases s.eof_cases with ⟨-, heq⟩ | ⟨-, -, heq⟩ | ⟨-, hmin, heq⟩ <;> rw [heq]
  · exact h.clearAssembly.congr rfl
  · exact h.clearAssembly.congr rfl
  · exact (h.deliverFrame hmin).clearAssembly.congr rfl

theorem StoreOk.highTimer {s : State} (h : StoreOk s.cfg s.dev) : StoreOk s.cfg s.highTimer.dev := by
  rcases s.highTimer_cases with ⟨-, heq⟩ | ⟨-, heq⟩ | ⟨-, heq⟩ <;> rw [heq]
  · exact h
  · exact h.congr rfl
  · exact StoreOk.eof (s := s.withDev { s.dev with highCnt := s.dev.highCnt + 1 }) (h.congr rfl)

theorem StoreOk.disc {s : State} (h : StoreOk s.cfg s.dev) : StoreOk s.cfg s.disc.dev := by
  rcases s.disc_dev_cases with ⟨-, heq⟩ | ⟨-, heq⟩ <;> rw [heq]
  · exact h.congr rfl
  · exact h.clearAssembly.congr rfl

theorem StoreOk.idleTimer {c : Config} {s : State} (hcfg : s.cfg = c) (h : StoreOk c s.dev) :
    StoreOk c s.idleTimer.dev := by
  subst hcfg
  rcases s.idleTimer_cases with ⟨-, heq⟩ | ⟨-, heq⟩ | ⟨-, heq⟩ <;> rw [heq]
  · exact h
  · exact h.congr rfl
  · exact StoreOk.disc (s := s.withDev { s.dev with idleCnt := s.dev.idleCnt + 1 }) (h.congr rfl)

theorem StoreOk.tickHoldLow {s : State} (h : StoreOk s.cfg s.dev) (l : Bool) :
    StoreOk s.cfg (s.tickHoldLow l).dev :=
  .idleTimer rfl (h.holdSampleM l)

theorem StoreOk.tickHoldHigh {s : State} (h : StoreOk s.cfg s.dev) (l : Bool) :
    StoreOk s.cfg (s.tickHoldHigh l).dev := by
  have hhigh := StoreOk.highTimer (s := s.withDev (s.dev.holdSampleP s.cfg l)) (h.holdSampleP l)
  exact .idleTimer (by simp) hhigh

theorem StoreOk.pop {c : Config} {v : Device} (h : StoreOk c v) : StoreOk c (v.pop c) := by
  rcases v.pop_cases c with ⟨-, heq⟩ | ⟨hlen, heq⟩
  · rw [heq]
    exact h
  · have hlive : ∀ f ∈ (v.pop c).liveFrames c, FrameOk c f := fun f hf =>
      h.live f (Device.liveFrames_eq_cons_pop h.queue hlen ▸ List.mem_cons_of_mem _ hf)
    have hqueue := h.queue.pop
    rw [heq] at hlive hqueue ⊢
    exact { h with shape := { h.shape with }, queue := hqueue, live := hlive }

theorem StoreOk.filtclr {c : Config} {v : Device} (h : StoreOk c v) : StoreOk c v.filtclr := by
  have hdata : ∀ e ∈ v.filtclr.filt, e.data.length = c.readSize := by
    intro e he
    obtain ⟨e', he', rfl⟩ := List.mem_map.mp he
    exact h.shape.filtData e' he'
  exact
    { h with
      shape := { h.shape with filtLength := List.length_map .. |>.trans h.shape.filtLength, filtData := hdata }
      queue := { h.queue with } }

/-! ### The writer -/

/-- With no request held, the writer is at rest. -/
theorem WriterOk.rest_of_not_pending {c : Config} {v : Device} (h : WriterOk c v) (hp : v.wrPending = false) :
    v.driveLow = false ∧ v.wrActive = false ∧ v.wrLast = false ∧ v.wrSecond = false := by
  have hnot : v.wrPending ≠ true := ne_true_of_eq_false hp
  have hactive : v.wrActive ≠ true := fun ha => hnot (h.active ha).1
  exact ⟨eq_false_of_ne_true fun hd => hnot (h.drive hd).2.1, eq_false_of_ne_true hactive,
    eq_false_of_ne_true fun hl => hactive (h.last hl).1, eq_false_of_ne_true fun hs => hnot (h.second hs).1⟩

theorem WriterOk.of_rest {c : Config} {v : Device} (hp : v.wrPending = false) (hd : v.driveLow = false)
    (ha : v.wrActive = false) (hl : v.wrLast = false) (hs : v.wrSecond = false) : WriterOk c v := by
  constructor <;> simp [hp, hd, ha, hl, hs]

/-- The line is driven only in the low half (R59 (iv)). -/
theorem WriterOk.released_of_high {c : Config} {v : Device} (h : WriterOk c v) (hq : v.clkQ = true) :
    v.driveLow = false ∧ v.wrLast = false :=
  ⟨eq_false_of_ne_true fun hd => absurd hq (ne_true_of_eq_false (h.drive hd).1),
    eq_false_of_ne_true fun hl => absurd hq (ne_true_of_eq_false (h.last hl).2)⟩

theorem WriterOk.abandonWrite (c : Config) (v : Device) : WriterOk c v.abandonWrite :=
  .of_rest rfl rfl rfl rfl rfl

theorem WriterOk.tickFirst {c : Config} {v : Device} (h : WriterOk c v) (hseen : v.clkSeen = false) (b : Bool) :
    WriterOk c (v.tickFirst.latchClock b) := by
  have hp : v.wrPending = false :=
    eq_false_of_ne_true fun hp => ne_true_of_eq_false hseen (h.pending hp).2.1
  obtain ⟨hd, ha, hl, hs⟩ := h.rest_of_not_pending hp
  exact .of_rest hp hd ha hl hs

/-- Before a rising edge that does not complete the write, the window has a bit to come, which the highHalf clause
records. -/
theorem WriterOk.edgeRise {c : Config} {v : Device} (h : WriterOk c v) (hq : v.clkQ = false) :
    WriterOk c (v.edgeRise.latchClock true) := by
  rcases v.edgeRise_cases with ⟨hl, heq⟩ | ⟨hl, heq⟩ <;> rw [heq]
  · have hbit : v.wrActive = true → v.pBits ≤ v.wrStart + 6 := by
      intro ha
      have hwin := (h.window ha).2
      have hne : v.pBits ≠ v.wrStart + 7 := fun hc => by simp [(h.lowHalf ha hq).mpr hc] at hl
      omega
    exact
      { h with
        drive := nofun
        last := fun hc => absurd hc (ne_true_of_eq_false hl)
        lowHalf := nofun
        highHalf := fun ha _ _ => hbit ha }
  · have hp := (h.active (h.last hl).1).1
    rcases v.edgeCommon.risingRelease.writeComplete_cases with ⟨halarm, -, hwc⟩ | ⟨-, hwc⟩ <;> rw [hwc]
    · exact
        { h with
          drive := nofun, last := nofun, active := nofun, window := nofun, lowHalf := nofun, highHalf := nofun
          second := fun _ => ⟨hp, halarm⟩ }
    · exact .of_rest rfl rfl rfl rfl rfl

/-- A falling edge presents a bit of an open window, opens one, or leaves the writer as it is. -/
theorem WriterOk.edgeFall {c : Config} {v : Device} (h : WriterOk c v) (hq : v.clkQ = true) :
    WriterOk c (v.edgeFall.latchClock false) := by
  obtain ⟨hd, hl⟩ := h.released_of_high hq
  have hclosed (ha : v.wrActive = false) : WriterOk c (v.edgeCommon.latchClock false) :=
    { h with
      drive := fun hc => absurd hc (ne_true_of_eq_false hd)
      last := fun hc => absurd hc (ne_true_of_eq_false hl)
      lowHalf := fun hc => absurd hc (ne_true_of_eq_false ha)
      highHalf := nofun }
  unfold Device.edgeFall
  rcases ha : v.wrActive
  · rcases v.edgeCommon.writerEvaluate_cases with heq | ⟨hp, hv, hs, -, -, hb, heq⟩ | ⟨-, -, -, ha', -⟩
    · rw [heq]
      exact hclosed ha
    · have hb : v.pBits = v.wrStart := hb
      rw [heq]
      exact
        { h with
          drive := fun _ => ⟨rfl, hp, rfl, hv⟩
          last := fun _ => ⟨rfl, rfl⟩
          active := fun _ => ⟨hp, hs⟩
          window := fun _ => by show v.wrStart ≤ v.pBits ∧ v.pBits ≤ v.wrStart + 7; omega
          lowHalf := fun _ _ => by
            show (v.wrLast || decide (0 = 7)) = true ↔ v.pBits = v.wrStart + 7
            simp [hl, hb]
          highHalf := nofun }
    · exact absurd ha' (ne_true_of_eq_false ha)
  · obtain ⟨hp, hs⟩ := h.active ha
    obtain ⟨hv, -, -⟩ := h.pending hp
    obtain ⟨hlo, hhi⟩ := h.window ha
    rw [Device.writerEvaluate_of_active (v := v.edgeCommon) hp hv hs ha hlo hhi]
    exact
      { h with
        drive := fun _ => ⟨rfl, hp, ha, hv⟩
        last := fun _ => ⟨ha, rfl⟩
        lowHalf := fun _ _ => by
          show (v.wrLast || decide (v.pBits - v.wrStart = 7)) = true ↔ v.pBits = v.wrStart + 7
          simp only [hl, Bool.false_or, decide_eq_true_eq]
          omega
        highHalf := nofun }

/-- The panel bit of a high half moves an open window on by one, and the highHalf clause leaves room for it. -/
theorem WriterOk.holdSampleP {c : Config} {v : Device} (h : WriterOk c v) (hq : v.clkQ = true) (l : Bool) :
    WriterOk c (v.holdSampleP c l) := by
  rcases v.holdSampleP_cases c l with ⟨-, heq⟩ | ⟨harm, -, heq⟩ | ⟨harm, -, heq⟩ <;> rw [heq]
  · exact h
  · exact { h with }
  · rcases Device.sampleP_cases c { v with sampCnt := v.sampCnt + 1, sampArmed := false } l with
      ⟨-, -, hs⟩ | ⟨-, hs⟩ <;> rw [hs]
    · exact
        { h with
          window := fun ha => by
            have hlo := (h.window ha).1
            have hhi := h.highHalf ha hq harm
            show v.wrStart ≤ v.pBits + 1 ∧ v.pBits + 1 ≤ v.wrStart + 7
            omega
          lowHalf := fun _ hc => absurd hq (ne_true_of_eq_false hc)
          highHalf := nofun }
    · exact { h with highHalf := nofun }

theorem WriterOk.holdSampleM {c : Config} {v : Device} (h : WriterOk c v) (l : Bool) :
    WriterOk c (v.holdSampleM c l) := by
  rcases v.holdSampleM_cases c l with ⟨-, heq⟩ | ⟨harm, -, heq⟩ | ⟨harm, -, heq⟩ <;> rw [heq]
  · exact h
  · exact { h with }
  · rcases Device.sampleM_cases c { v with sampCnt := v.sampCnt + 1, sampArmed := false } l with
      ⟨-, -, -, hs⟩ | ⟨-, -, -, hs⟩ | ⟨-, hs⟩ <;> rw [hs] <;> exact { h with highHalf := nofun }

theorem WriterOk.eof {s : State} (h : WriterOk s.cfg s.dev) (hq : s.dev.clkQ = true) :
    WriterOk s.cfg s.eof.dev := by
  obtain ⟨hd, -⟩ := h.released_of_high hq
  obtain ⟨_, _, _, _, _, _, _, _, _, heq⟩ := s.eof_frame
  rw [heq]
  exact
    { h with
      drive := fun hc => absurd hc (ne_true_of_eq_false hd)
      last := nofun, active := nofun, window := nofun, lowHalf := nofun, highHalf := nofun }

theorem WriterOk.highTimer {s : State} (h : WriterOk s.cfg s.dev) (hq : s.dev.clkQ = true) :
    WriterOk s.cfg s.highTimer.dev := by
  rcases s.highTimer_cases with ⟨-, heq⟩ | ⟨-, heq⟩ | ⟨-, heq⟩ <;> rw [heq]
  · exact h
  · exact { h with }
  · exact WriterOk.eof (s := s.withDev { s.dev with highCnt := s.dev.highCnt + 1 }) { h with } hq

theorem WriterOk.disc (s : State) : WriterOk s.cfg s.disc.dev := by
  rcases s.disc_dev_cases with ⟨-, heq⟩ | ⟨-, heq⟩ <;> rw [heq]
  · exact .abandonWrite _ _
  · exact .of_rest rfl rfl rfl rfl rfl

theorem WriterOk.idleTimer {c : Config} {s : State} (hcfg : s.cfg = c) (h : WriterOk c s.dev) :
    WriterOk c s.idleTimer.dev := by
  subst hcfg
  rcases s.idleTimer_cases with ⟨-, heq⟩ | ⟨-, heq⟩ | ⟨-, heq⟩ <;> rw [heq]
  · exact h
  · exact { h with }
  · exact WriterOk.disc (s.withDev { s.dev with idleCnt := s.dev.idleCnt + 1 })

theorem WriterOk.tickHoldLow {s : State} (h : WriterOk s.cfg s.dev) (l : Bool) :
    WriterOk s.cfg (s.tickHoldLow l).dev :=
  .idleTimer rfl (h.holdSampleM l)

theorem WriterOk.tickHoldHigh {s : State} (h : WriterOk s.cfg s.dev) (hq : s.dev.clkQ = true) (l : Bool) :
    WriterOk s.cfg (s.tickHoldHigh l).dev := by
  have hq' : (s.dev.holdSampleP s.cfg l).clkQ = true := by
    rw [Device.holdSampleP_clkQ, hq]
  have hhigh := WriterOk.highTimer (s := s.withDev (s.dev.holdSampleP s.cfg l)) (h.holdSampleP hq l) hq'
  exact .idleTimer (by simp) hhigh

/-- Clearing VKP_EN abandons the request, so none is held without it (42_writer.md R212). -/
theorem WriterOk.ctrlWrite {c : Config} {v : Device} (h : WriterOk c v) (b : Byte) :
    WriterOk c (v.ctrlWrite b) := by
  rcases v.ctrlWrite_cases b with ⟨-, -, heq⟩ | ⟨hor, heq⟩ <;> rw [heq]
  · exact .of_rest rfl rfl rfl rfl rfl
  · by_cases hp : v.wrPending = true
    · have hv := (h.pending hp).1
      have hb : b.getLsbD 0 = true := hor.resolve_left (by simp [hv])
      exact
        { h with
          drive := fun hd => ⟨(h.drive hd).1, hp, (h.drive hd).2.2.1, hb⟩
          pending := fun _ => ⟨hb, (h.pending hp).2⟩ }
    · have hp := eq_false_of_ne_true hp
      obtain ⟨hd, ha, hl, hs⟩ := h.rest_of_not_pending hp
      exact .of_rest hp hd ha hl hs

/-- The start bit of a partition's slot leaves room for a pattern (00_scope.md R4). -/
theorem slotOf_start_le {c : Config} (hc : c.wf = true) {p : Nat} (h1 : 1 ≤ p) (h2 : p ≤ c.maxPartitions) :
    (slotOf c p).start + 8 ≤ c.maxBits := by
  obtain ⟨-, -, hlen, hslots, -⟩ := Config.wf_slots hc
  have hlt : p - 1 < c.slots.length := by omega
  unfold slotOf
  rw [List.getD_eq_getElem _ _ hlt]
  exact (hslots _ (List.getElem_mem hlt)).2

/-- An accepted key is loaded over a writer at rest (42_writer.md R201 (c), R202). -/
theorem WriterOk.loadKey {c : Config} {v : Device} (hc : c.wf = true) (h : WriterOk c v)
    (hseen : v.clkSeen = true) (hacc : v.acceptsKey c = true) (k : Key) : WriterOk c (v.loadKey c k) := by
  obtain ⟨hv, -, hp, h1, h2⟩ := (v.acceptsKey_iff c).mp hacc
  have hdrive : v.driveLow ≠ true := ne_true_of_eq_false (h.rest_of_not_pending hp).1
  obtain ⟨-, -, -, -, halarm⟩ := Config.wf_slots hc
  rcases v.loadKey_cases c k with ⟨-, heq⟩ | ⟨-, heq⟩ <;> rw [heq]
  · exact
      { drive := fun hcontra => absurd hcontra hdrive
        pending := fun _ => ⟨hv, hseen, halarm⟩
        last := nofun, active := nofun, second := nofun, window := nofun, lowHalf := nofun, highHalf := nofun }
  · exact
      { drive := fun hcontra => absurd hcontra hdrive
        pending := fun _ => ⟨hv, hseen, slotOf_start_le hc h1 h2⟩
        last := nofun, active := nofun, second := nofun, window := nofun, lowHalf := nofun, highHalf := nofun }

/-! ### The timers -/

theorem TimersOk.reset (c : Config) : TimersOk c (Device.reset c) where
  high := Nat.zero_le _
  idle := Nat.zero_le _
  sampRange := Nat.zero_le _
  samp := nofun
  fresh _ := ⟨rfl, rfl, rfl, rfl⟩
  highIdle _ _ := rfl
  highSat := nofun

theorem TimersOk.tickFirst {c : Config} {v : Device} (h : TimersOk c v) (hseen : v.clkSeen = false) (b : Bool) :
    TimersOk c (v.tickFirst.latchClock b) := by
  obtain ⟨hhigh, hidle, -, -⟩ := h.fresh hseen
  exact
    { h with
      samp := fun ha => ⟨(h.samp ha).1, (h.samp ha).2.1, rfl⟩
      fresh := nofun
      highIdle := fun _ _ => hidle.trans hhigh.symm
      highSat := fun _ hsat => absurd (hhigh.symm.trans hsat) (Nat.zero_ne_add_one _) }

/-- Every edge restarts the sample timer and the idle timer, and a rising one the high timer as well. -/
theorem TimersOk.of_restart {c : Config} {v : Device} {q : Bool} {n : Nat} (hc : c.wf = true)
    (hv : v.timers = ⟨true, q, true, 0, n, 0⟩) (hn : n ≤ c.tEof + 1) (hq : q = true → n = 0) : TimersOk c v := by
  obtain ⟨hsample, -⟩ := Config.wf_bounds hc
  simp only [Device.timers, Timers.mk.injEq] at hv
  obtain ⟨hseen, rfl, -, hcnt, rfl, hidle⟩ := hv
  exact
    { high := hn
      idle := by omega
      sampRange := by omega
      samp := fun _ => ⟨by omega, hcnt.trans hidle.symm, hseen⟩
      fresh := fun hf => absurd hseen (ne_true_of_eq_false hf)
      highIdle := fun hclk _ => hidle.trans (hq hclk).symm
      highSat := fun hclk hsat => absurd ((hq hclk).symm.trans hsat) (Nat.zero_ne_add_one _) }

theorem TimersOk.edgeRise {c : Config} {v : Device} (hc : c.wf = true) (hseen : v.clkSeen = true) :
    TimersOk c (v.edgeRise.latchClock true) := by
  refine .of_restart hc (q := true) (n := 0) ?_ (Nat.zero_le _) fun _ => rfl
  rw [Device.latchClock_timers, Device.edgeRise_timers, hseen]

theorem TimersOk.edgeFall {c : Config} {v : Device} (hc : c.wf = true) (h : TimersOk c v)
    (hseen : v.clkSeen = true) : TimersOk c (v.edgeFall.latchClock false) := by
  refine .of_restart hc (q := false) (n := v.highCnt) ?_ h.high nofun
  rw [Device.latchClock_timers, Device.edgeFall_timers, hseen]

/-- While the sample timer runs it agrees with the idle timer, whatever the clock level. -/
theorem TimersOk.samp_hold {c : Config} {v : Device} (hc : c.wf = true) (h : TimersOk c v) :
    let t := (v.timers.sample c).idle c
    t.idleCnt ≤ c.tDisc + 1 ∧ t.sampCnt ≤ c.tSample ∧
      (t.sampArmed = true → t.sampCnt < c.tSample ∧ t.sampCnt = t.idleCnt) := by
  obtain ⟨-, hse, hed, -⟩ := Config.wf_bounds hc
  have hidle := h.idle
  have hrange := h.sampRange
  by_cases harm : v.sampArmed = true
  · obtain ⟨hlt, heq, -⟩ := h.samp harm
    have hle : v.idleCnt ≤ c.tDisc := by omega
    simp only [Timers.sample, Timers.idle, Device.timers, harm, hle, if_true, Bool.true_and, decide_eq_true_eq]
    omega
  · have harm := eq_false_of_ne_true harm
    refine ⟨?_, by simpa [Timers.sample, Timers.idle, Device.timers, harm] using hrange, ?_⟩
    · show (if v.idleCnt ≤ c.tDisc then v.idleCnt + 1 else v.idleCnt) ≤ c.tDisc + 1
      split_ifs <;> omega
    · simp [Timers.sample, Timers.idle, Device.timers, harm]

theorem TimersOk.holdLow {c : Config} {v w : Device} (hc : c.wf = true) (h : TimersOk c v)
    (hseen : v.clkSeen = true) (hq : v.clkQ = false) (hw : w.timers = (v.timers.sample c).idle c) :
    TimersOk c w := by
  have hseen' : w.clkSeen = true := (congrArg Timers.clkSeen hw).trans hseen
  have hq' : w.clkQ = false := (congrArg Timers.clkQ hw).trans hq
  have hhigh : w.highCnt = v.highCnt := congrArg Timers.highCnt hw
  obtain ⟨hidle, hrange, hsamp⟩ := h.samp_hold hc
  rw [← hw] at hidle hrange hsamp
  exact
    { high := hhigh ▸ h.high
      idle := hidle
      sampRange := hrange
      samp := fun ha => ⟨(hsamp ha).1, (hsamp ha).2, hseen'⟩
      fresh := fun hf => absurd hseen' (ne_true_of_eq_false hf)
      highIdle := fun hf => absurd hf (ne_true_of_eq_false hq')
      highSat := fun hf => absurd hf (ne_true_of_eq_false hq') }

/-- In a high half the idle timer keeps up with the high timer, and stays past it once that rests. -/
theorem TimersOk.holdHigh {c : Config} {v w : Device} (hc : c.wf = true) (h : TimersOk c v)
    (hseen : v.clkSeen = true) (hq : v.clkQ = true) (hw : w.timers = ((v.timers.sample c).high c).idle c) :
    TimersOk c w := by
  obtain ⟨-, -, hed, -⟩ := Config.wf_bounds hc
  have hseen' : w.clkSeen = true := (congrArg Timers.clkSeen hw).trans hseen
  have hhigh : w.highCnt = if v.highCnt ≤ c.tEof then v.highCnt + 1 else v.highCnt := congrArg Timers.highCnt hw
  have hidle : w.idleCnt = if v.idleCnt ≤ c.tDisc then v.idleCnt + 1 else v.idleCnt := congrArg Timers.idleCnt hw
  have hcnt : w.sampCnt = (v.timers.sample c).sampCnt := congrArg Timers.sampCnt hw
  have harm : w.sampArmed = (v.timers.sample c).sampArmed := congrArg Timers.sampArmed hw
  obtain ⟨hidle', hrange, hsamp⟩ := h.samp_hold hc
  have hmax := h.high
  have hagree := h.highIdle hq
  have hpast := h.highSat hq
  exact
    { high := by rw [hhigh]; split_ifs <;> omega
      idle := hidle ▸ hidle'
      sampRange := hcnt ▸ hrange
      samp := fun ha => by
        obtain ⟨hlt, heq⟩ := hsamp (harm ▸ ha)
        exact ⟨hcnt ▸ hlt, (hcnt.trans heq).trans hidle.symm, hseen'⟩
      fresh := fun hf => absurd hseen' (ne_true_of_eq_false hf)
      highIdle := fun _ hle => by
        rw [hhigh] at hle ⊢
        rw [hidle]
        split_ifs at hle ⊢ <;> omega
      highSat := fun _ hsat => by
        rw [hhigh] at hsat
        rw [hidle]
        split_ifs at hsat ⊢ <;> omega }

theorem TimersOk.tickHoldLow {s : State} (hc : s.cfg.wf = true) (h : TimersOk s.cfg s.dev)
    (hseen : s.dev.clkSeen = true) (hq : s.dev.clkQ = false) (l : Bool) : TimersOk s.cfg (s.tickHoldLow l).dev :=
  h.holdLow hc hseen hq (s.tickHoldLow_timers l)

theorem TimersOk.tickHoldHigh {s : State} (hc : s.cfg.wf = true) (h : TimersOk s.cfg s.dev)
    (hseen : s.dev.clkSeen = true) (hq : s.dev.clkQ = true) (l : Bool) : TimersOk s.cfg (s.tickHoldHigh l).dev :=
  h.holdHigh hc hseen hq (s.tickHoldHigh_timers l)

/-- A running sample timer fires before the boundary of its high half (00_scope.md R5). -/
theorem TimersOk.highCnt_le_of_armed {c : Config} {v : Device} (hc : c.wf = true) (h : TimersOk c v)
    (hq : v.clkQ = true) (harm : v.sampArmed = true) : v.highCnt ≤ c.tEof := by
  obtain ⟨-, hse, -⟩ := Config.wf_bounds hc
  obtain ⟨hlt, heq, -⟩ := h.samp harm
  have hmax := h.high
  have hpast := h.highSat hq
  omega

/-! ### The quiet times -/

theorem QuietOk.reset (c : Config) : QuietOk c (Device.reset c) where
  boundary := nofun
  unsynced _ := ⟨rfl, rfl, rfl⟩

theorem QuietOk.of_clear {c : Config} {v : Device} (hp : v.pBits = 0) (hm : v.mBits = 0) (hd : v.mDetect = false) :
    QuietOk c v :=
  ⟨fun _ _ => ⟨hp, hm, hd⟩, fun _ => ⟨hp, hm, hd⟩⟩

theorem QuietOk.tickFirst {c : Config} {v : Device} (h : QuietOk c v) (ht : TimersOk c v)
    (hseen : v.clkSeen = false) (b : Bool) : QuietOk c (v.tickFirst.latchClock b) :=
  { h with boundary := fun _ hsat => absurd ((ht.fresh hseen).1.symm.trans hsat) (Nat.zero_ne_add_one _) }

theorem QuietOk.edgeRise {c : Config} {v : Device} (h : QuietOk c v) :
    QuietOk c (v.edgeRise.latchClock true) := by
  rcases v.edgeRise_cases with ⟨-, heq⟩ | ⟨-, heq⟩ <;> rw [heq]
  · exact { h with boundary := nofun }
  · rcases v.edgeCommon.risingRelease.writeComplete_cases with ⟨-, -, hwc⟩ | ⟨-, hwc⟩ <;> rw [hwc] <;>
      exact { h with boundary := nofun }

theorem QuietOk.edgeFall {c : Config} {v : Device} (h : QuietOk c v) :
    QuietOk c (v.edgeFall.latchClock false) := by
  obtain ⟨a, l, d, heq⟩ := v.edgeCommon.writerEvaluate_frame
  rw [Device.edgeFall, heq]
  exact { h with boundary := nofun }

/-- A panel bit is taken only when synchronised and before the boundary. -/
theorem QuietOk.holdSampleP {c : Config} {v : Device} (hc : c.wf = true) (h : QuietOk c v) (ht : TimersOk c v)
    (hq : v.clkQ = true) (l : Bool) : QuietOk c (v.holdSampleP c l) := by
  rcases v.holdSampleP_cases c l with ⟨-, heq⟩ | ⟨-, -, heq⟩ | ⟨harm, -, heq⟩ <;> rw [heq]
  · exact h
  · exact { h with }
  · rcases Device.sampleP_cases c { v with sampCnt := v.sampCnt + 1, sampArmed := false } l with
      ⟨hs, -, heq⟩ | ⟨-, heq⟩ <;> rw [heq]
    · have hle := ht.highCnt_le_of_armed hc hq harm
      have hne : v.highCnt ≠ c.tEof + 1 := by omega
      exact ⟨fun _ hsat => absurd hsat hne, fun hf => absurd hs (ne_true_of_eq_false hf)⟩
    · exact { h with }

theorem QuietOk.holdSampleM {c : Config} {v : Device} (h : QuietOk c v) (hq : v.clkQ = false) (l : Bool) :
    QuietOk c (v.holdSampleM c l) := by
  have hlow : v.clkQ ≠ true := ne_true_of_eq_false hq
  rcases v.holdSampleM_cases c l with ⟨-, heq⟩ | ⟨-, -, heq⟩ | ⟨-, -, heq⟩ <;> rw [heq]
  · exact h
  · exact { h with }
  · rcases Device.sampleM_cases c { v with sampCnt := v.sampCnt + 1, sampArmed := false } l with
      ⟨hs, -, -, heq⟩ | ⟨hs, -, -, heq⟩ | ⟨-, heq⟩ <;> rw [heq]
    · exact ⟨fun hf => absurd hf hlow, fun hf => absurd hs (ne_true_of_eq_false hf)⟩
    · exact ⟨fun hf => absurd hf hlow, fun hf => absurd hs (ne_true_of_eq_false hf)⟩
    · exact { h with }

theorem QuietOk.eof (s : State) : QuietOk s.cfg s.eof.dev := by
  obtain ⟨_, _, _, _, _, _, _, _, _, heq⟩ := s.eof_frame
  rw [heq]
  exact .of_clear rfl rfl rfl

theorem QuietOk.highTimer {s : State} (h : QuietOk s.cfg s.dev) : QuietOk s.cfg s.highTimer.dev := by
  rcases s.highTimer_cases with ⟨-, heq⟩ | ⟨hlt, heq⟩ | ⟨-, heq⟩ <;> rw [heq]
  · exact h
  · have hne : s.dev.highCnt + 1 ≠ s.cfg.tEof + 1 := by omega
    exact { h with boundary := fun _ hsat => absurd hsat hne }
  · exact QuietOk.eof (s.withDev { s.dev with highCnt := s.dev.highCnt + 1 })

theorem QuietOk.disc {s : State} (h : QuietOk s.cfg s.dev) : QuietOk s.cfg s.disc.dev := by
  rcases s.disc_dev_cases with ⟨-, heq⟩ | ⟨-, heq⟩ <;> rw [heq]
  · exact { h with }
  · exact .of_clear rfl rfl rfl

theorem QuietOk.idleTimer {c : Config} {s : State} (hcfg : s.cfg = c) (h : QuietOk c s.dev) :
    QuietOk c s.idleTimer.dev := by
  subst hcfg
  rcases s.idleTimer_cases with ⟨-, heq⟩ | ⟨-, heq⟩ | ⟨-, heq⟩ <;> rw [heq]
  · exact h
  · exact { h with }
  · exact QuietOk.disc (s := s.withDev { s.dev with idleCnt := s.dev.idleCnt + 1 }) { h with }

theorem QuietOk.tickHoldLow {s : State} (h : QuietOk s.cfg s.dev) (hq : s.dev.clkQ = false) (l : Bool) :
    QuietOk s.cfg (s.tickHoldLow l).dev :=
  .idleTimer rfl (h.holdSampleM hq l)

theorem QuietOk.tickHoldHigh {s : State} (hc : s.cfg.wf = true) (h : QuietOk s.cfg s.dev)
    (ht : TimersOk s.cfg s.dev) (hq : s.dev.clkQ = true) (l : Bool) : QuietOk s.cfg (s.tickHoldHigh l).dev := by
  have hhigh := QuietOk.highTimer (s := s.withDev (s.dev.holdSampleP s.cfg l)) (h.holdSampleP hc ht hq l)
  exact .idleTimer (by simp) hhigh

end Sys2Proof.Machine
end

section
/-! What a step can do to the block, and that all of it keeps `Inv` (10_state.md R59). -/

namespace Sys2Proof.Machine

/-! ### What a step can do -/

/-- Everything a step that takes its input from `s` can make of the block: reset, the five ticks of 30_encoding.md
R110, and the host's operations of 43_host_ops.md. -/
inductive DeviceStep (s : State) : Device → Prop
  | same : DeviceStep s s.dev
  | reset : DeviceStep s (Device.reset s.cfg)
  | tickFirst (c : Bool) (hseen : s.dev.clkSeen = false) : DeviceStep s (s.dev.tickFirst.latchClock c)
  | edgeRise (hseen : s.dev.clkSeen = true) (hq : s.dev.clkQ = false) : DeviceStep s (s.dev.edgeRise.latchClock true)
  | edgeFall (hseen : s.dev.clkSeen = true) (hq : s.dev.clkQ = true) : DeviceStep s (s.dev.edgeFall.latchClock false)
  | holdLow (l : Bool) (hseen : s.dev.clkSeen = true) (hq : s.dev.clkQ = false) :
    DeviceStep s ((s.tickHoldLow l).dev.latchClock false)
  | holdHigh (l : Bool) (hseen : s.dev.clkSeen = true) (hq : s.dev.clkQ = true) :
    DeviceStep s ((s.tickHoldHigh l).dev.latchClock true)
  | flagClear (m : Byte) : DeviceStep s (s.dev.flagClear m)
  | ctrlWrite (b : Byte) : DeviceStep s (s.dev.ctrlWrite b)
  | wkey (b : Byte) : DeviceStep s { s.dev with wkey := b }
  | wpart (b : Byte) : DeviceStep s { s.dev with wpart := b }
  | pop : DeviceStep s (s.dev.pop s.cfg)
  | filtclr : DeviceStep s s.dev.filtclr
  | loadKey (k : Key) (hacc : s.dev.acceptsKey s.cfg = true) : DeviceStep s (s.dev.loadKey s.cfg k)

/-- A tick runs the operation that the clock history selects (30_encoding.md R110). -/
theorem deviceStep_of_tick {s t : State} {c d : Bool} (h : exec (decodeTick (s.dev.tickPattern c) d) s = .next t) :
    DeviceStep s t.dev := by
  unfold Device.tickPattern at h
  rcases hseen : s.dev.clkSeen
  · have hsel : decodeTick (BitVec.ofBool false ++ BitVec.ofBool s.dev.clkQ ++ BitVec.ofBool c) d =
        .tickFirst s.dev.clkQ c d := by
      cases s.dev.clkQ <;> cases c <;> rfl
    rw [hseen, hsel] at h
    cases h
    exact .tickFirst c hseen
  · rw [hseen] at h
    rcases hq : s.dev.clkQ <;> rw [hq] at h <;> cases c <;> cases h
    · exact .holdLow _ hseen hq
    · exact .edgeRise hseen hq
    · exact .edgeFall hseen hq
    · exact .holdHigh _ hseen hq

/-- A read shows a value and nothing else (43_host_ops.md R220). -/
theorem exec_decodeHostRead (addr : BitVec 6) (b : Byte) (s : State) :
    ∃ x, exec (decodeHostRead addr b) s = .next (s.answer x) := by
  unfold decodeHostRead
  split
  case h_13 => split_ifs <;> exact ⟨_, rfl⟩
  all_goals exact ⟨_, rfl⟩

/-- What a write can do: nothing, or the operation of one of the five writable registers (43_host_ops.md R221). -/
theorem exec_decodeHostWrite_cases (addr : BitVec 6) (b : Byte) (s : State) :
    exec (decodeHostWrite addr b) s = .next s ∨
    exec (decodeHostWrite addr b) s = .next (s.withDev (s.dev.flagClear b)) ∨
    exec (decodeHostWrite addr b) s = .next (s.withDev (s.dev.ctrlWrite b)) ∨
    exec (decodeHostWrite addr b) s = .next (s.command b) ∨
    exec (decodeHostWrite addr b) s = .next (s.withDev { s.dev with wkey := b }) ∨
    exec (decodeHostWrite addr b) s = .next (s.withDev { s.dev with wpart := b }) := by
  unfold decodeHostWrite
  split
  case h_2 => exact .inr (.inl rfl)
  case h_3 => exact .inr (.inr (.inl rfl))
  case h_4 => exact .inr (.inr (.inr (.inl rfl)))
  case h_8 => exact .inr (.inr (.inr (.inr (.inl rfl))))
  case h_9 => exact .inr (.inr (.inr (.inr (.inr rfl))))
  case h_13 => split_ifs <;> exact .inl rfl
  all_goals exact .inl rfl

theorem deviceStep_writeKey (s : State) : DeviceStep s s.writeKey.dev := by
  rcases s.writeKey_cases with ⟨k, -, heq⟩ | ⟨-, heq⟩ <;> rw [heq]
  · rcases s.requestKey_cases k with ⟨hacc, heq⟩ | ⟨-, heq⟩ <;> rw [heq]
    · exact .loadKey k hacc
    · exact .same
  · exact .same

theorem deviceStep_command (s : State) (b : Byte) : DeviceStep s (s.command b).dev := by
  rcases s.command_cases b with ⟨-, heq⟩ | ⟨-, heq⟩ | ⟨-, heq⟩ | ⟨-, heq⟩ | ⟨-, heq⟩ <;> rw [heq]
  · exact .same
  · exact .pop
  · exact deviceStep_writeKey s
  · exact .filtclr
  · exact .same

theorem deviceStep_of_host {s t : State} {sel : BitVec 7} {b : Byte} (h : exec (decodeHost sel b) s = .next t) :
    DeviceStep s t.dev := by
  unfold decodeHost at h
  split at h
  · rcases exec_decodeHostWrite_cases (sel.setWidth 6) b s with heq | heq | heq | heq | heq | heq <;>
      cases heq.symm.trans h
    · exact .same
    · exact .flagClear b
    · exact .ctrlWrite b
    · exact deviceStep_command s b
    · exact .wkey b
    · exact .wpart b
  · obtain ⟨x, heq⟩ := exec_decodeHostRead (sel.setWidth 6) b s
    cases heq.symm.trans h
    exact .same

/-- Only a configuration the spec gives a meaning is stepped (00_scope.md R5, R9). -/
theorem wf_of_step_next {s t : State} (h : step s = .next t) : s.cfg.wf = true := by
  have hnone : configRefusal s.cfg = none := by
    rcases hr : configRefusal s.cfg with _ | r
    · rfl
    · rw [step_of_configRefusal hr] at h
      cases h
  by_contra hwf
  rcases hd : s.cfg.dialect
  · rw [configRefusal_of_not_wf hd hwf] at hnone
    cases hnone
  · rw [configRefusal_of_classic hd] at hnone
    cases hnone

/-- A step that answers a next state leaves the parameters alone and does one of the listed things to the block. -/
theorem step_deviceStep {s t : State} (h : step s = .next t) :
    t.cfg = s.cfg ∧ ∃ l, DeviceStep { s with inputs := l, out := Output.none } t.dev := by
  have hwf := wf_of_step_next h
  rcases hin : s.inputs with _ | ⟨x, rest⟩
  · simp only [step, configRefusal_of_wf hwf, hin] at h
    cases h
    exact ⟨rfl, [], .same⟩
  · rw [step_cons hwf hin] at h
    have hkeeps (i : Instr) (h : exec i (s.begin rest) = .next t) : t.cfg = s.cfg := by
      obtain ⟨u, hu, hcfg, -⟩ := exec_keeps_machine i (s.begin rest)
      cases hu.symm.trans h
      exact hcfg
    cases x with
    | rst =>
      cases h
      exact ⟨rfl, rest, .reset⟩
    | tick c d => exact ⟨hkeeps _ h, rest, deviceStep_of_tick (s := s.begin rest) h⟩
    | host we addr w => exact ⟨hkeeps _ h, rest, deviceStep_of_host (s := s.begin rest) h⟩

/-! ### All of it keeps the invariants -/

theorem Inv.reset {c : Config} (hc : c.wf = true) : Inv c (Device.reset c) := by
  obtain ⟨-, -, -, -, -, hcap, -⟩ := Config.wf_bounds hc
  exact .of_parts (.reset hcap) (.of_rest rfl rfl rfl rfl rfl) (.reset c) (.reset c)

/-- Settles O55. -/
theorem resetMeetsTheInvariants : Obligations.ResetMeetsTheInvariants := fun _ hc => .reset hc

section Ticks

variable {s : State} (h : Inv s.cfg s.dev)

include h

theorem Inv.tickFirst (hseen : s.dev.clkSeen = false) (b : Bool) : Inv s.cfg (s.dev.tickFirst.latchClock b) :=
  .of_parts (h.store.congr rfl) (h.writer.tickFirst hseen b) (h.timers.tickFirst hseen b)
    (h.quiet.tickFirst h.timers hseen b)

theorem Inv.edgeRise (hc : s.cfg.wf = true) (hseen : s.dev.clkSeen = true) (hq : s.dev.clkQ = false) :
    Inv s.cfg (s.dev.edgeRise.latchClock true) :=
  .of_parts (h.store.congr (by simp)) (h.writer.edgeRise hq) (.edgeRise hc hseen) h.quiet.edgeRise

theorem Inv.edgeFall (hc : s.cfg.wf = true) (hseen : s.dev.clkSeen = true) (hq : s.dev.clkQ = true) :
    Inv s.cfg (s.dev.edgeFall.latchClock false) :=
  .of_parts (h.store.congr (by simp)) (h.writer.edgeFall hq) (h.timers.edgeFall hc hseen) h.quiet.edgeFall

theorem Inv.holdLow (hc : s.cfg.wf = true) (hseen : s.dev.clkSeen = true) (hq : s.dev.clkQ = false) (l : Bool) :
    Inv s.cfg ((s.tickHoldLow l).dev.latchClock false) := by
  have hq' : (s.tickHoldLow l).dev.clkQ = false := (congrArg Timers.clkQ (s.tickHoldLow_timers l)).trans hq
  rw [Device.latchClock_of_clkQ hq']
  exact .of_parts (h.store.tickHoldLow l) (h.writer.tickHoldLow l) (h.timers.tickHoldLow hc hseen hq l)
    (h.quiet.tickHoldLow hq l)

theorem Inv.holdHigh (hc : s.cfg.wf = true) (hseen : s.dev.clkSeen = true) (hq : s.dev.clkQ = true) (l : Bool) :
    Inv s.cfg ((s.tickHoldHigh l).dev.latchClock true) := by
  have hq' : (s.tickHoldHigh l).dev.clkQ = true := (congrArg Timers.clkQ (s.tickHoldHigh_timers l)).trans hq
  rw [Device.latchClock_of_clkQ hq']
  exact .of_parts (h.store.tickHoldHigh l) (h.writer.tickHoldHigh hq l) (h.timers.tickHoldHigh hc hseen hq l)
    (h.quiet.tickHoldHigh hc h.timers hq l)

end Ticks

section HostAccesses

variable {c : Config} {v : Device} (h : Inv c v)

include h

theorem Inv.flagClear (m : Byte) : Inv c (v.flagClear m) :=
  .of_parts (h.store.congr rfl) { h.writer with } { h.timers with } { h.quiet with }

theorem Inv.wkey (b : Byte) : Inv c { v with wkey := b } :=
  .of_parts (h.store.congr rfl) { h.writer with } { h.timers with } { h.quiet with }

theorem Inv.wpart (b : Byte) : Inv c { v with wpart := b } :=
  .of_parts (h.store.congr rfl) { h.writer with } { h.timers with } { h.quiet with }

theorem Inv.ctrlWrite (b : Byte) : Inv c (v.ctrlWrite b) := by
  refine .of_parts (h.store.congr (by simp)) (h.writer.ctrlWrite b) ?_ ?_ <;>
    rcases v.ctrlWrite_cases b with ⟨-, -, heq⟩ | ⟨-, heq⟩ <;> rw [heq]
  · exact { h.timers with }
  · exact { h.timers with }
  · exact { h.quiet with }
  · exact { h.quiet with }

theorem Inv.pop : Inv c (v.pop c) := by
  refine .of_parts h.store.pop ?_ ?_ ?_ <;> rcases v.pop_cases c with ⟨-, heq⟩ | ⟨-, heq⟩ <;> rw [heq]
  · exact h.writer
  · exact { h.writer with }
  · exact h.timers
  · exact { h.timers with }
  · exact h.quiet
  · exact { h.quiet with }

theorem Inv.filtclr : Inv c v.filtclr :=
  .of_parts h.store.filtclr { h.writer with } { h.timers with } { h.quiet with }

/-- A connected bus has had its first tick, so an accepted request is a request after it. -/
theorem Inv.loadKey (hc : c.wf = true) (hacc : v.acceptsKey c = true) (k : Key) : Inv c (v.loadKey c k) := by
  obtain ⟨-, hconn, -⟩ := (v.acceptsKey_iff c).mp hacc
  have hseen : v.clkSeen = true := by
    refine eq_true_of_ne_false fun hf => ?_
    obtain ⟨-, -, hdown, -⟩ := h.timers.fresh hf
    exact absurd hconn (ne_true_of_eq_false hdown)
  refine .of_parts (h.store.congr (by simp)) (h.writer.loadKey hc hseen hacc k) ?_ ?_ <;>
    rcases v.loadKey_cases c k with ⟨-, heq⟩ | ⟨-, heq⟩ <;> rw [heq]
  · exact { h.timers with }
  · exact { h.timers with }
  · exact { h.quiet with }
  · exact { h.quiet with }

end HostAccesses

/-- The invariants are kept by everything a step can do. -/
theorem Inv.deviceStep {s : State} {w : Device} (hc : s.cfg.wf = true) (h : Inv s.cfg s.dev) (hw : DeviceStep s w) :
    Inv s.cfg w := by
  cases hw with
  | same => exact h
  | reset => exact .reset hc
  | tickFirst b hseen => exact h.tickFirst hseen b
  | edgeRise hseen hq => exact h.edgeRise hc hseen hq
  | edgeFall hseen hq => exact h.edgeFall hc hseen hq
  | holdLow l hseen hq => exact h.holdLow hc hseen hq l
  | holdHigh l hseen hq => exact h.holdHigh hc hseen hq l
  | flagClear m => exact h.flagClear m
  | ctrlWrite b => exact h.ctrlWrite b
  | wkey b => exact h.wkey b
  | wpart b => exact h.wpart b
  | pop => exact h.pop
  | filtclr => exact h.filtclr
  | loadKey k hacc => exact h.loadKey hc hacc k

/-- Settles O56: a step does one of the things `DeviceStep` lists, and each keeps `Inv`. -/
theorem everyStepKeepsTheInvariants : Obligations.EveryStepKeepsTheInvariants := by
  intro s t h hstep
  have hwf := wf_of_step_next hstep
  obtain ⟨hcfg, l, hdev⟩ := step_deviceStep hstep
  rw [hcfg]
  exact Inv.deviceStep (s := { s with inputs := l, out := Output.none }) hwf h hdev

/-! ### The widths (10_state.md R20) -/

/-- A count up to a limit fits `W(limit)` bits. -/
theorem lt_two_pow_log2_succ_of_le {n m : Nat} (h : n ≤ m) : n < 2 ^ (Nat.log2 m + 1) :=
  lt_of_le_of_lt h Nat.lt_log2_self

/-- A frame holds at most 121 bits, so 8 bits hold every bit count (00_scope.md R4). -/
theorem Config.maxBits_le {c : Config} (hc : c.wf = true) : c.maxBits ≤ 121 := by
  obtain ⟨-, -, -, -, hread, -⟩ := Config.wf_bounds hc
  unfold Config.maxBits
  omega

theorem byteCount_lt_of_le {n : Nat} (h : n ≤ 121) : byteCount n < 2 ^ 5 := by
  unfold byteCount byteIndex
  split_ifs <;> omega

/-- Settles O57: each counter is under its limit by `Inv`, and the width holds the limit. -/
theorem countersFitTheirWidths : Obligations.CountersFitTheirWidths := by
  intro c v hc h
  obtain ⟨-, -, -, -, -, hcap, hcap', -⟩ := Config.wf_bounds hc
  obtain ⟨hhead, htail, hlen⟩ := h.queue
  have hmax := Config.maxBits_le hc
  have hbits {n : Nat} (hn : n ≤ c.maxBits) : n < 2 ^ 8 := by omega
  have hheadlt : v.qHead < c.queueCap := hhead ▸ Nat.mod_lt _ hcap
  exact
    { sampCnt := lt_two_pow_log2_succ_of_le h.timers.sampRange
      highCnt := lt_two_pow_log2_succ_of_le h.timers.high
      idleCnt := lt_two_pow_log2_succ_of_le h.timers.idle
      pBits := hbits h.pBits
      mBits := hbits h.mBits
      msBits := hbits h.msBits
      liveBits := fun f hf => by
        obtain ⟨hbytes, -, hmaxf⟩ := h.live f hf
        exact ⟨hbits hmaxf, hbytes ▸ byteCount_lt_of_le (hmaxf.trans hmax)⟩
      qHead := lt_two_pow_log2_succ_of_le (Nat.le_sub_one_of_lt hheadlt)
      qTail := lt_two_pow_log2_succ_of_le (Nat.le_sub_one_of_lt htail)
      qLen := by omega
      wrStart := fun hp => by
        have := (h.writer.pending hp).2.2
        omega }

end Sys2Proof.Machine
end

section
/-! The map's inert accesses, the FIFO as a list, and the order of the two agents in one period (20_memory.md R76, R78,
R84). -/

namespace Sys2Proof.Machine

/-! ### Inert accesses (20_memory.md R84) -/

/-- Settles O39: each row's meaning is the ignored write, or the answer 0x00. -/
theorem reservedAndReadOnlyAccessesAreInert : Obligations.ReservedAndReadOnlyAccessesAreInert := by
  intro s i lo b
  have hignored : ∀ x ∈ ignoredWriteRows i b, exec x s = .next (s.ignoreWrite b) := by
    simp only [ignoredWriteRows, List.forall_mem_cons]
    exact ⟨rfl, rfl, rfl, rfl, rfl, rfl, rfl, rfl, rfl, List.forall_mem_nil _⟩
  have hzero : ∀ x ∈ [Instr.hostReserved0C0F false lo b, .hostReserved303F false i b, .hrFlagclrZero, .hrCmdZero],
      exec x s = .next (s.answer 0x00#8) := by
    simp only [List.forall_mem_cons]
    exact ⟨rfl, rfl, rfl, rfl, List.forall_mem_nil _⟩
  exact ⟨hignored, rfl, rfl, hzero⟩

/-! ### The FIFO in capture order (20_memory.md R78) -/

theorem Device.liveFrames_pop {c : Config} {v : Device} (hq : QueueOk c v) :
    (v.pop c).liveFrames c = (v.liveFrames c).tail := by
  rcases v.pop_cases c with ⟨hempty, heq⟩ | ⟨hlen, -⟩
  · rw [heq]
    simp [Device.liveFrames, hempty]
  · rw [Device.liveFrames_eq_cons_pop hq hlen, List.tail_cons]

/-- Settles O28: ENQUEUE by its two cases, POP by what it takes away. -/
theorem fifoKeepsCaptureOrder : Obligations.FifoKeepsCaptureOrder := by
  intro s _ hshape hq
  refine ⟨⟨_, rfl, ?_⟩, ⟨_, rfl, hq.pop, Device.liveFrames_pop hq⟩⟩
  rcases s.enqueue_cases s.dev.pData s.dev.pBits with ⟨hfull, heq⟩ | ⟨hroom, heq⟩ <;> rw [heq]
  · rw [if_pos hfull]
    exact ⟨{ hq with }, rfl⟩
  · rw [if_neg hroom]
    exact ⟨hq.pushFrame hroom _ _, Device.liveFrames_pushFrame hshape.slotsLength hq hroom _ _⟩

/-! ### One period (20_memory.md R76) -/

/-- The bits of `{h_we, h_addr}` (30_encoding.md R111). -/
theorem decodeHost_hostSelect (we : Bool) (addr : BitVec 6) (b : Byte) :
    decodeHost (hostSelect we addr) b = if we then decodeHostWrite addr b else decodeHostRead addr b := by
  have hwe : (hostSelect we addr).getLsbD 6 = we := by decide +revert
  have haddr : (hostSelect we addr).setWidth 6 = addr := by decide +revert
  rw [decodeHost, hwe, haddr]

/-- The machine with other inputs to come. -/
def State.withInputs (s : State) (l : List Input) : State := { s with inputs := l }

theorem State.requestKey_withInputs (s : State) (l : List Input) (k : Key) :
    (s.withInputs l).requestKey k = (s.requestKey k).withInputs l := by
  rcases s.requestKey_cases k with ⟨hacc, heq⟩ | ⟨hacc, heq⟩ <;> rw [heq]
  · exact if_pos hacc
  · exact if_neg (ne_true_of_eq_false hacc)

theorem State.writeKey_withInputs (s : State) (l : List Input) :
    (s.withInputs l).writeKey = s.writeKey.withInputs l := by
  have hdev : (s.withInputs l).dev = s.dev := rfl
  unfold State.writeKey
  rw [hdev]
  split
  · exact s.requestKey_withInputs l _
  · rfl

theorem State.command_withInputs (s : State) (l : List Input) (b : Byte) :
    (s.withInputs l).command b = (s.command b).withInputs l := by
  unfold State.command
  split
  case h_3 => exact s.writeKey_withInputs l
  all_goals rfl

/-- A host access does not see what comes after it. -/
theorem exec_decodeHost_withInputs (sel : BitVec 7) (b : Byte) (s : State) (l : List Input) :
    ∃ t, exec (decodeHost sel b) s = .next t ∧ exec (decodeHost sel b) (s.withInputs l) = .next (t.withInputs l) := by
  unfold decodeHost
  split
  · unfold decodeHostWrite
    split
    case h_4 => exact ⟨_, rfl, congrArg _ (s.command_withInputs l b)⟩
    case h_13 => split_ifs <;> exact ⟨_, rfl, rfl⟩
    all_goals exact ⟨_, rfl, rfl⟩
  · unfold decodeHostRead
    split
    case h_13 => split_ifs <;> exact ⟨_, rfl, rfl⟩
    all_goals exact ⟨_, rfl, rfl⟩

/-- A tick or a host access performs the operation it selects. -/
theorem step_of_selects {s : State} {x : Input} {rest : List Input} {i : Instr} (hwf : s.cfg.wf = true)
    (hin : s.inputs = x :: rest) (hsel : s.dev.selects x = some i) : step s = exec i (s.begin rest) := by
  rw [step_cons hwf hin, hsel]

/-- A period with an access and a tick puts both, in this order, into an empty queue. -/
theorem State.feed_access {s : State} {p : Period} (hin : s.inputs = []) (hrst : p.rst = false)
    (hvalid : p.hValid = true) :
    s.feed p = s.withInputs [.host p.hWe p.hAddr p.hWdata, .tick p.kbClk p.kbData] := by
  simp [State.feed, State.withInputs, Period.inputs, hin, hrst, hvalid]

/-- Settles O10: the access answers the same block whether or not the tick is already waiting. -/
theorem hostAccessPrecedesTheTick : Obligations.HostAccessPrecedesTheTick := by
  intro s p hwf hin hrst hvalid
  obtain ⟨t, ht, ht'⟩ := exec_decodeHost_withInputs (hostSelect p.hWe p.hAddr) p.hWdata (s.begin [])
    [.tick p.kbClk p.kbData]
  have hwft : t.cfg.wf = true := by
    obtain ⟨t', heq, hcfg, -⟩ := exec_keeps_machine (decodeHost (hostSelect p.hWe p.hAddr) p.hWdata) (s.begin [])
    cases heq.symm.trans ht
    rw [hcfg]
    exact hwf
  obtain ⟨u, hu, -, hempty⟩ := exec_keeps_machine (decodeTick (t.dev.tickPattern p.kbClk) p.kbData) (t.begin [])
  refine ⟨t, u, ?_, ?_, ?_⟩
  · exact (step_of_selects (s := s.withInputs [.host p.hWe p.hAddr p.hWdata]) hwf rfl rfl).trans ht
  · exact (step_of_selects (s := t.withInputs [.tick p.kbClk p.kbData]) hwft rfl rfl).trans hu
  · rw [State.feed_access hin hrst hvalid]
    calc s.runInputs [.host p.hWe p.hAddr p.hWdata, .tick p.kbClk p.kbData]
        = (t.withInputs [.tick p.kbClk p.kbData]).runInputs [.tick p.kbClk p.kbData] :=
          State.runInputs_cons hwf rfl ht'
      _ = u.runInputs [] := State.runInputs_cons (s := t.withInputs _) hwft rfl hu
      _ = .next { u with inputs := [] } := u.runInputs_nil
      _ = .next u := by rw [← hempty.trans (State.begin_inputs t [])]

end Sys2Proof.Machine
end

section
/-! The bus agent: every piece of a tick leaves the host's elements alone (20_memory.md R82, R83). -/

namespace Sys2Proof.Machine

/-! ### The host's elements and the front frame -/

/-- The elements that only host accesses write. -/
def Device.hostElements (v : Device) : Nat × Bool × Bool × Byte × Byte × Byte × Nat × Byte × Bool × Bool :=
  (v.qTail, v.vkpEn, v.modEn, v.wkey, v.wpart, v.wrPattern, v.wrStart, v.wrCmd, v.wrAny, v.wrAlarm)

/-- The ring of the FIFO (10_state.md R33, R34). -/
def Device.fifo (v : Device) : List FrameSlot × Nat × Nat × Nat := (v.slots, v.qHead, v.qTail, v.qLen)

/-- The FIFO stays a ring, and its front frame, if it has one, stays in front (20_memory.md R82). -/
def FrontKept (c : Config) (v w : Device) : Prop :=
  ∀ f, QueueOk c v → v.front = some f → QueueOk c w ∧ w.front = some f

theorem Device.front_of_pos {v : Device} (h : 0 < v.qLen) : v.front = some (v.slotAt v.qTail) :=
  if_neg (Nat.ne_of_gt h)

theorem Device.qLen_pos_of_front {v : Device} {f : FrameSlot} (h : v.front = some f) : 0 < v.qLen := by
  refine Nat.pos_of_ne_zero fun hempty => ?_
  rw [Device.front_of_empty hempty] at h
  cases h

theorem FrontKept.of_fifo {c : Config} {v w : Device} (h : w.fifo = v.fifo) : FrontKept c v w := by
  simp only [Device.fifo, Prod.mk.injEq] at h
  obtain ⟨hslots, hhead, htail, hlen⟩ := h
  rintro f ⟨hq, hlt, hle⟩ hf
  refine ⟨⟨?_, ?_, ?_⟩, ?_⟩
  · rw [hhead, htail, hlen, hq]
  · rwa [htail]
  · rwa [hlen]
  · rw [← hf, Device.front, Device.front, Device.slotAt, Device.slotAt, hslots, htail, hlen]

/-- The slot ENQUEUE writes is the front one only in an empty or a full ring. -/
theorem QueueOk.qHead_ne_qTail {c : Config} {v : Device} (hq : QueueOk c v) (hpos : 0 < v.qLen)
    (hroom : v.qLen ≠ c.queueCap) : v.qHead ≠ v.qTail := by
  obtain ⟨hhead, htail, hlen⟩ := hq
  intro heq
  have hmod : v.qTail + v.qLen ≡ v.qTail + 0 [MOD c.queueCap] := by
    rw [Nat.ModEq, ← hhead, heq, Nat.add_zero, Nat.mod_eq_of_lt htail]
  have := Nat.ModEq.eq_of_lt_of_lt (Nat.ModEq.add_left_cancel' _ hmod) (by omega) (by omega)
  omega

theorem FrontKept.pushFrame {c : Config} {v : Device} (hroom : v.qLen ≠ c.queueCap) (data : List Byte) (n : Nat) :
    FrontKept c v (v.pushFrame c data n) := by
  intro f hq hf
  have hpos := Device.qLen_pos_of_front hf
  refine ⟨hq.pushFrame hroom data n, ?_⟩
  have hslot : (v.pushFrame c data n).slotAt v.qTail = v.slotAt v.qTail := by
    simp [Device.slotAt, Device.pushFrame, List.getD, List.getElem?_set_ne (hq.qHead_ne_qTail hpos hroom)]
  rw [← hf, Device.front_of_pos hpos, ← hslot]
  exact Device.front_of_pos (Nat.succ_pos _)

/-! ### What a tick keeps -/

/-- What any piece of a tick keeps: it leaves the host's elements alone, moves a shared element only in the bus
agent's direction, and leaves the front frame in front. -/
structure TickKeeps (c : Config) (v w : Device) : Prop where
  host : w.hostElements = v.hostElements
  qLen : v.qLen ≤ w.qLen
  filt : ∀ (k : Nat) (e : FilterSlot), v.filt[k]? = some e → e.valid = true →
    ∃ e', w.filt[k]? = some e' ∧ e'.valid = true
  overflow : v.overflow = true → w.overflow = true
  connChanged : v.connChanged = true → w.connChanged = true
  msValid : v.msValid = true → w.msValid = true
  wrPending : w.wrPending = true → v.wrPending = true
  front : FrontKept c v w

theorem TickKeeps.refl (c : Config) (v : Device) : TickKeeps c v v where
  host := rfl
  qLen := Nat.le_refl _
  filt _ e he hvalid := ⟨e, he, hvalid⟩
  overflow := id
  connChanged := id
  msValid := id
  wrPending := id
  front := .of_fifo rfl

theorem TickKeeps.trans {c : Config} {u v w : Device} (h : TickKeeps c u v) (h' : TickKeeps c v w) :
    TickKeeps c u w where
  host := h'.host.trans h.host
  qLen := h.qLen.trans h'.qLen
  filt k e he hvalid := by
    obtain ⟨e', he', hvalid'⟩ := h.filt k e he hvalid
    exact h'.filt k e' he' hvalid'
  overflow := h'.overflow ∘ h.overflow
  connChanged := h'.connChanged ∘ h.connChanged
  msValid := h'.msValid ∘ h.msValid
  wrPending := h.wrPending ∘ h'.wrPending
  front f hq hf := by
    obtain ⟨hq', hf'⟩ := h.front f hq hf
    exact h'.front f hq' hf'

/-- The block with everything blanked that `TickKeeps` does not speak of: what only ticks write, and the writer's
progress. -/
def Device.shared (v : Device) : Device :=
  { v with
    clkSeen := false, clkQ := false, sampArmed := false, sampCnt := 0, highCnt := 0, idleCnt := 0, synced := false
    pData := [], pBits := 0, mData := [], mBits := 0, mDetect := false, connected := false, msData := [], msBits := 0
    msCmd := 0x00#8, wrSecond := false, wrActive := false, wrLast := false, driveLow := false }

theorem TickKeeps.of_shared {c : Config} {v w : Device} (h : w.shared = v.shared) : TickKeeps c v w where
  host := (congrArg Device.hostElements h :)
  qLen := Nat.le_of_eq (congrArg Device.qLen h).symm
  filt k e he hvalid := ⟨e, (congrArg (fun d => d.filt[k]?) h).trans he, hvalid⟩
  overflow := (congrArg Device.overflow h).trans
  connChanged := (congrArg Device.connChanged h).trans
  msValid := (congrArg Device.msValid h).trans
  wrPending := (congrArg Device.wrPending h).symm.trans
  front := .of_fifo (congrArg Device.fifo h :)

/-- A piece of a tick that starts from a block with the same shared elements. -/
theorem TickKeeps.of_shared_left {c : Config} {u v w : Device} (h : TickKeeps c v w) (hshared : v.shared = u.shared) :
    TickKeeps c u w :=
  (TickKeeps.of_shared hshared).trans h

theorem TickKeeps.edgeCommon (c : Config) (v : Device) : TickKeeps c v v.edgeCommon :=
  { TickKeeps.refl c v with
    connChanged := fun h => Bool.or_eq_true_iff.mpr (.inl h)
    front := .of_fifo rfl }

theorem TickKeeps.writeComplete (c : Config) (v : Device) : TickKeeps c v v.writeComplete := by
  rcases v.writeComplete_cases with ⟨-, -, heq⟩ | ⟨-, heq⟩ <;> rw [heq]
  · exact .of_shared rfl
  · exact { TickKeeps.refl c v with wrPending := nofun, front := .of_fifo rfl }

theorem TickKeeps.edgeRise (c : Config) (v : Device) : TickKeeps c v v.edgeRise := by
  have hrelease : TickKeeps c v v.edgeCommon.risingRelease := (TickKeeps.edgeCommon c v).trans (.of_shared rfl)
  rcases v.edgeRise_cases with ⟨-, heq⟩ | ⟨-, heq⟩ <;> rw [heq]
  · exact hrelease
  · exact hrelease.trans (.writeComplete c _)

theorem TickKeeps.edgeFall (c : Config) (v : Device) : TickKeeps c v v.edgeFall := by
  obtain ⟨a, l, d, heq⟩ := v.edgeCommon.writerEvaluate_frame
  rw [Device.edgeFall, heq]
  exact (TickKeeps.edgeCommon c v).trans (.of_shared rfl)

theorem TickKeeps.sampleP (c : Config) (v : Device) (l : Bool) : TickKeeps c v (v.sampleP c l) := by
  rcases v.sampleP_cases c l with ⟨-, -, heq⟩ | ⟨-, heq⟩ <;> rw [heq] <;> exact .of_shared rfl

theorem TickKeeps.sampleM (c : Config) (v : Device) (l : Bool) : TickKeeps c v (v.sampleM c l) := by
  rcases v.sampleM_cases c l with ⟨-, -, -, heq⟩ | ⟨-, -, -, heq⟩ | ⟨-, heq⟩ <;> rw [heq] <;> exact .of_shared rfl

theorem TickKeeps.holdSampleP (c : Config) (v : Device) (l : Bool) : TickKeeps c v (v.holdSampleP c l) := by
  rcases v.holdSampleP_cases c l with ⟨-, heq⟩ | ⟨-, -, heq⟩ | ⟨-, -, heq⟩ <;> rw [heq]
  · exact .refl c v
  · exact .of_shared rfl
  · exact (TickKeeps.sampleP c _ l).of_shared_left rfl

theorem TickKeeps.holdSampleM (c : Config) (v : Device) (l : Bool) : TickKeeps c v (v.holdSampleM c l) := by
  rcases v.holdSampleM_cases c l with ⟨-, heq⟩ | ⟨-, -, heq⟩ | ⟨-, -, heq⟩ <;> rw [heq]
  · exact .refl c v
  · exact .of_shared rfl
  · exact (TickKeeps.sampleM c _ l).of_shared_left rfl

/-- A frame is remembered in a slot that is valid from then on (10_state.md R32). -/
theorem TickKeeps.filterUpdate (c : Config) (v : Device) : TickKeeps c v (v.filterUpdate c) := by
  rcases v.filterUpdate_cases c with ⟨-, heq⟩ | ⟨k, -, -, heq⟩ <;> rw [heq]
  · exact .refl c v
  · have hfilt : ∀ (j : Nat) (e : FilterSlot), v.filt[j]? = some e → e.valid = true →
        ∃ e', (v.filt.set k ⟨true, v.pData⟩)[j]? = some e' ∧ e'.valid = true := by
      intro j e he hvalid
      by_cases hkj : k = j
      · obtain ⟨hlt, -⟩ := List.getElem?_eq_some_iff.mp he
        exact ⟨⟨true, v.pData⟩, by rw [hkj, List.getElem?_set_self hlt], rfl⟩
      · exact ⟨e, by rw [List.getElem?_set_ne hkj, he], hvalid⟩
    exact { TickKeeps.refl c v with filt := hfilt, front := .of_fifo rfl }

theorem TickKeeps.enqueue (s : State) (data : List Byte) (n : Nat) :
    TickKeeps s.cfg s.dev (s.enqueue data n).dev := by
  rcases s.enqueue_cases data n with ⟨-, heq⟩ | ⟨hroom, heq⟩ <;> rw [heq]
  · exact { TickKeeps.refl s.cfg s.dev with overflow := fun _ => rfl, front := .of_fifo rfl }
  · exact { TickKeeps.refl s.cfg s.dev with qLen := Nat.le_succ _, front := .pushFrame hroom data n }

theorem TickKeeps.moduleSnapshot (c : Config) (v : Device) : TickKeeps c v v.moduleSnapshot := by
  rcases v.moduleSnapshot_cases with ⟨-, -, heq⟩ | ⟨-, heq⟩ <;> rw [heq]
  · exact { TickKeeps.refl c v with msValid := fun _ => rfl, front := .of_fifo rfl }
  · exact .refl c v

theorem TickKeeps.deliverFrame (s : State) : TickKeeps s.cfg s.dev s.deliverFrame.dev := by
  have hfilter := TickKeeps.filterUpdate s.cfg s.dev
  rcases s.deliverFrame_cases with ⟨-, heq⟩ | ⟨-, heq⟩ <;> rw [heq]
  · exact hfilter.trans (.moduleSnapshot _ _)
  · exact (hfilter.trans (.enqueue (s.withDev (s.dev.filterUpdate s.cfg)) _ _)).trans (.moduleSnapshot _ _)

theorem TickKeeps.eof (s : State) : TickKeeps s.cfg s.dev s.eof.dev := by
  rcases s.eof_cases with ⟨-, heq⟩ | ⟨-, -, heq⟩ | ⟨-, -, heq⟩ <;> rw [heq]
  · exact .of_shared rfl
  · exact .of_shared rfl
  · exact (TickKeeps.deliverFrame s).trans (.of_shared rfl)

theorem TickKeeps.highTimer (s : State) : TickKeeps s.cfg s.dev s.highTimer.dev := by
  rcases s.highTimer_cases with ⟨-, heq⟩ | ⟨-, heq⟩ | ⟨-, heq⟩ <;> rw [heq]
  · exact .refl _ _
  · exact .of_shared rfl
  · exact (TickKeeps.eof (s.withDev { s.dev with highCnt := s.dev.highCnt + 1 })).of_shared_left rfl

/-- DISC abandons the request and marks the change of `connected` (40_sampler.md R164). -/
theorem TickKeeps.disc (s : State) : TickKeeps s.cfg s.dev s.disc.dev := by
  have habandon : TickKeeps s.cfg s.dev s.dev.disconnected.abandonWrite :=
    { TickKeeps.refl s.cfg s.dev with
      connChanged := fun h => Bool.or_eq_true_iff.mpr (.inl h)
      wrPending := nofun
      front := .of_fifo rfl }
  rcases s.disc_dev_cases with ⟨-, heq⟩ | ⟨-, heq⟩ <;> rw [heq]
  · exact habandon
  · exact habandon.trans (.of_shared rfl)

theorem TickKeeps.idleTimer (s : State) : TickKeeps s.cfg s.dev s.idleTimer.dev := by
  rcases s.idleTimer_cases with ⟨-, heq⟩ | ⟨-, heq⟩ | ⟨-, heq⟩ <;> rw [heq]
  · exact .refl _ _
  · exact .of_shared rfl
  · exact (TickKeeps.disc (s.withDev { s.dev with idleCnt := s.dev.idleCnt + 1 })).of_shared_left rfl

theorem TickKeeps.tickHoldLow (s : State) (l : Bool) : TickKeeps s.cfg s.dev (s.tickHoldLow l).dev :=
  (TickKeeps.holdSampleM s.cfg s.dev l).trans (.idleTimer (s.withDev (s.dev.holdSampleM s.cfg l)))

theorem TickKeeps.tickHoldHigh (s : State) (l : Bool) : TickKeeps s.cfg s.dev (s.tickHoldHigh l).dev := by
  have hhigh := TickKeeps.highTimer (s.withDev (s.dev.holdSampleP s.cfg l))
  have hidle := TickKeeps.idleTimer (s.withDev (s.dev.holdSampleP s.cfg l)).highTimer
  rw [State.highTimer_cfg] at hidle
  exact ((TickKeeps.holdSampleP s.cfg s.dev l).trans hhigh).trans hidle

/-- All five ticks, whatever pattern selects them (30_encoding.md R110). -/
theorem TickKeeps.of_exec {s t : State} {p : BitVec 3} {d : Bool} (h : exec (decodeTick p d) s = .next t) :
    TickKeeps s.cfg s.dev t.dev := by
  have hlatch (v : Device) (b : Bool) : TickKeeps s.cfg v (v.latchClock b) := .of_shared rfl
  unfold decodeTick at h
  split at h <;> cases h
  · exact .of_shared rfl
  · exact (TickKeeps.edgeRise s.cfg s.dev).trans (hlatch _ _)
  · exact (TickKeeps.edgeFall s.cfg s.dev).trans (hlatch _ _)
  · exact (TickKeeps.tickHoldLow s _).trans (hlatch _ _)
  · exact (TickKeeps.tickHoldHigh s _).trans (hlatch _ _)

/-- The operation behind a step that answered. -/
theorem exec_of_step {s t : State} {x : Input} {rest : List Input} {i : Instr} (hin : s.inputs = x :: rest)
    (hsel : s.dev.selects x = some i) (h : step s = .next t) : exec i (s.begin rest) = .next t :=
  (step_of_selects (wf_of_step_next h) hin hsel).symm.trans h

theorem TickKeeps.of_step {s t : State} {c d : Bool} {rest : List Input} (hin : s.inputs = .tick c d :: rest)
    (h : step s = .next t) : TickKeeps s.cfg s.dev t.dev :=
  TickKeeps.of_exec (s := s.begin rest) (exec_of_step hin rfl h)

/-- Settles O59: the tick keeps all that `TickKeeps` lists. -/
theorem ticksNeverWriteHostElements : Obligations.TicksNeverWriteHostElements := by
  intro s t c d rest hin hstep
  have hkeeps := TickKeeps.of_step hin hstep
  have hhost := hkeeps.host
  simp only [Device.hostElements, Prod.mk.injEq] at hhost
  obtain ⟨htail, hvkp, hmod, hwkey, hwpart, hpattern, hstart, hcmd, hany, halarm⟩ := hhost
  exact ⟨htail, hvkp, hmod, hwkey, hwpart, hpattern, hstart, hcmd, hany, halarm, hkeeps.qLen, hkeeps.filt,
    hkeeps.overflow, hkeeps.connChanged, hkeeps.msValid, hkeeps.wrPending⟩

end Sys2Proof.Machine
end

section
/-! The host: what an access can do, what it leaves alone, and that only a POP moves the front frame (20_memory.md R82,
R83). -/

namespace Sys2Proof.Machine

/-! ### What a host access can do (43_host_ops.md R221) -/

/-- Everything the access `h_we`, `h_addr`, `h_wdata` can make of the block; a POP is the access that names it. -/
inductive HostStep (s : State) (we : Bool) (addr : BitVec 6) (b : Byte) : Device → Prop
  | same : HostStep s we addr b s.dev
  | flagClear : HostStep s we addr b (s.dev.flagClear b)
  | ctrlWrite : HostStep s we addr b (s.dev.ctrlWrite b)
  | wkey : HostStep s we addr b { s.dev with wkey := b }
  | wpart : HostStep s we addr b { s.dev with wpart := b }
  | pop (hx : Input.host we addr b = .host true 0x03#6 0x01#8) : HostStep s we addr b (s.dev.pop s.cfg)
  | filtclr : HostStep s we addr b s.dev.filtclr
  | loadKey (k : Key) : HostStep s we addr b (s.dev.loadKey s.cfg k)

theorem hostStep_writeKey (s : State) (we : Bool) (addr : BitVec 6) (b : Byte) :
    HostStep s we addr b s.writeKey.dev := by
  rcases s.writeKey_cases with ⟨k, -, heq⟩ | ⟨-, heq⟩ <;> rw [heq]
  · rcases s.requestKey_cases k with ⟨-, heq⟩ | ⟨-, heq⟩ <;> rw [heq]
    · exact .loadKey k
    · exact .same
  · exact .same

theorem hostStep_command (s : State) (b : Byte) : HostStep s true 0x03#6 b (s.command b).dev := by
  rcases s.command_cases b with ⟨-, heq⟩ | ⟨hb, heq⟩ | ⟨-, heq⟩ | ⟨-, heq⟩ | ⟨-, heq⟩ <;> rw [heq]
  · exact .same
  · exact .pop (by rw [hb])
  · exact hostStep_writeKey s _ _ _
  · exact .filtclr
  · exact .same

theorem hostStep_write {s t : State} {addr : BitVec 6} {b : Byte}
    (h : exec (decodeHostWrite addr b) s = .next t) : HostStep s true addr b t.dev := by
  unfold decodeHostWrite at h
  split at h
  case h_2 => cases h; exact .flagClear
  case h_3 => cases h; exact .ctrlWrite
  case h_4 haddr =>
    cases h
    rw [show addr = 0x03#6 from BitVec.eq_of_toNat_eq haddr]
    exact hostStep_command s b
  case h_8 => cases h; exact .wkey
  case h_9 => cases h; exact .wpart
  case h_13 => split_ifs at h <;> cases h <;> exact .same
  all_goals cases h; exact .same

theorem hostStep_of_exec {s t : State} {we : Bool} {addr : BitVec 6} {b : Byte}
    (h : exec (decodeHost (hostSelect we addr) b) s = .next t) : HostStep s we addr b t.dev := by
  rw [decodeHost_hostSelect] at h
  cases we
  · obtain ⟨x, heq⟩ := exec_decodeHostRead addr b s
    cases heq.symm.trans h
    exact .same
  · exact hostStep_write h

theorem hostStep_of_step {s t : State} {we : Bool} {addr : BitVec 6} {b : Byte} {rest : List Input}
    (hin : s.inputs = .host we addr b :: rest) (h : step s = .next t) :
    HostStep (s.begin rest) we addr b t.dev :=
  hostStep_of_exec (exec_of_step hin rfl h)

/-! ### What a host access keeps for the bus agent (20_memory.md R83) -/

/-- The elements that only ticks write, the filter's bytes among them (10_state.md R32). -/
def Device.busElements (v : Device) :=
  (v.clkSeen, v.clkQ, v.sampArmed, v.sampCnt, v.highCnt, v.idleCnt, v.synced, v.pData, v.pBits, v.mData, v.mBits,
    v.mDetect, v.slots, v.qHead, v.connected, v.msData, v.msBits, v.msCmd, v.filt.map FilterSlot.data)

/-- What a host access keeps: it leaves the bus agent's elements alone and moves a shared element only in the host's
direction. -/
structure HostKeeps (v w : Device) : Prop where
  bus : w.busElements = v.busElements
  filt : ∀ (k : Nat) (e : FilterSlot), w.filt[k]? = some e → e.valid = true → v.filt[k]? = some e
  qLen : w.qLen ≤ v.qLen
  wrActive : w.wrActive = true → v.wrActive = true
  wrLast : w.wrLast = true → v.wrLast = true
  wrSecond : w.wrSecond = true → v.wrSecond = true
  overflow : w.overflow = true → v.overflow = true
  connChanged : w.connChanged = true → v.connChanged = true
  msValid : w.msValid = true → v.msValid = true
  driveLow : w.driveLow = true → v.driveLow = true

theorem HostKeeps.refl (v : Device) : HostKeeps v v where
  bus := rfl
  filt _ _ he _ := he
  qLen := Nat.le_refl _
  wrActive := id
  wrLast := id
  wrSecond := id
  overflow := id
  connChanged := id
  msValid := id
  driveLow := id

theorem HostKeeps.flagClear (v : Device) (m : Byte) : HostKeeps v (v.flagClear m) :=
  { HostKeeps.refl v with
    overflow := Bool.and_elim_left
    connChanged := Bool.and_elim_left
    msValid := Bool.and_elim_left }

theorem HostKeeps.ctrlWrite (v : Device) (b : Byte) : HostKeeps v (v.ctrlWrite b) := by
  rcases v.ctrlWrite_cases b with ⟨-, -, heq⟩ | ⟨-, heq⟩ <;> rw [heq]
  · exact { HostKeeps.refl v with wrActive := nofun, wrLast := nofun, wrSecond := nofun, driveLow := nofun }
  · exact { HostKeeps.refl v with }

theorem HostKeeps.pop (c : Config) (v : Device) : HostKeeps v (v.pop c) := by
  rcases v.pop_cases c with ⟨-, heq⟩ | ⟨-, heq⟩ <;> rw [heq]
  · exact .refl v
  · exact { HostKeeps.refl v with qLen := Nat.sub_le _ _ }

/-- FILTCLR leaves no slot valid and every byte in place (41_fifo_checksum.md R186). -/
theorem HostKeeps.filtclr (v : Device) : HostKeeps v v.filtclr := by
  have hdata : v.filtclr.filt.map FilterSlot.data = v.filt.map FilterSlot.data := by
    simp [Device.filtclr, Function.comp_def]
  have hinvalid : ∀ e ∈ v.filtclr.filt, e.valid = false := by simp [Device.filtclr]
  exact
    { HostKeeps.refl v with
      bus := by simp only [Device.busElements, hdata]; rfl
      filt := fun k e he hvalid =>
        absurd hvalid (ne_true_of_eq_false (hinvalid e (List.mem_of_getElem? he))) }

theorem HostKeeps.loadKey (c : Config) (v : Device) (k : Key) : HostKeeps v (v.loadKey c k) := by
  rcases v.loadKey_cases c k with ⟨-, heq⟩ | ⟨-, heq⟩ <;> rw [heq] <;>
    exact { HostKeeps.refl v with wrActive := nofun, wrLast := nofun, wrSecond := nofun }

theorem HostStep.keeps {s : State} {we : Bool} {addr : BitVec 6} {b : Byte} {w : Device}
    (h : HostStep s we addr b w) : HostKeeps s.dev w := by
  cases h with
  | same => exact .refl _
  | flagClear => exact .flagClear _ b
  | ctrlWrite => exact .ctrlWrite _ b
  | wkey => exact { HostKeeps.refl s.dev with }
  | wpart => exact { HostKeeps.refl s.dev with }
  | pop => exact .pop _ _
  | filtclr => exact .filtclr _
  | loadKey k => exact .loadKey _ _ k

/-- Settles O60: the access keeps all that `HostKeeps` lists. -/
theorem hostAccessesNeverWriteBusElements : Obligations.HostAccessesNeverWriteBusElements := by
  intro s t we addr w rest hin hstep
  have hkeeps := (hostStep_of_step hin hstep).keeps
  have hbus := hkeeps.bus
  simp only [Device.busElements, Prod.mk.injEq] at hbus
  obtain ⟨hseen, hclk, harmed, hsamp, hhigh, hidle, hsynced, hpdata, hpbits, hmdata, hmbits, hdetect, hslots, hhead,
    hconn, hmsdata, hmsbits, hmscmd, hfilt⟩ := hbus
  exact ⟨hseen, hclk, harmed, hsamp, hhigh, hidle, hsynced, hpdata, hpbits, hmdata, hmbits, hdetect, hslots, hhead,
    hconn, hmsdata, hmsbits, hmscmd, hfilt, hkeeps.filt, hkeeps.qLen, hkeeps.wrActive, hkeeps.wrLast,
    hkeeps.wrSecond, hkeeps.overflow, hkeeps.connChanged, hkeeps.msValid, hkeeps.driveLow⟩

/-! ### The front frame (20_memory.md R82) -/

/-- Of the host's operations only a POP moves the FIFO. -/
theorem HostStep.fifo {s : State} {we : Bool} {addr : BitVec 6} {b : Byte} {w : Device}
    (h : HostStep s we addr b w) (hpop : Input.host we addr b ≠ .host true 0x03#6 0x01#8) : w.fifo = s.dev.fifo := by
  cases h with
  | pop hx => exact absurd hx hpop
  | ctrlWrite => rcases s.dev.ctrlWrite_cases b with ⟨-, -, heq⟩ | ⟨-, heq⟩ <;> rw [heq] <;> rfl
  | loadKey k => rcases s.dev.loadKey_cases s.cfg k with ⟨-, heq⟩ | ⟨-, heq⟩ <;> rw [heq] <;> rfl
  | _ => rfl

theorem frontKept_of_step {s t : State} {x : Input} {rest : List Input} (hin : s.inputs = x :: rest)
    (hrst : x ≠ .rst) (hpop : x ≠ .host true 0x03#6 0x01#8) (h : step s = .next t) :
    FrontKept s.cfg s.dev t.dev := by
  cases x with
  | rst => exact absurd rfl hrst
  | tick c d => exact (TickKeeps.of_step hin h).front
  | host we addr b => exact .of_fifo ((hostStep_of_step hin h).fifo hpop)

/-- Settles O29: the FRONT registers and the verdict are functions of `Device.front`, which the step keeps. -/
theorem frontFrameIsStable : Obligations.FrontFrameIsStable := by
  intro s t x rest hgood hlen hin hrst hpop hstep
  obtain ⟨-, hinv⟩ := hgood
  have hfront := Device.front_of_pos hlen
  obtain ⟨-, hfront'⟩ := frontKept_of_step hin hrst hpop hstep _ hinv.queue hfront
  obtain ⟨hcfg, -⟩ := step_deviceStep hstep
  have hsame : t.dev.front = s.dev.front := hfront'.trans hfront.symm
  refine ⟨Device.qLen_pos_of_front hfront', ?_, ?_, ?_, fun i => ?_⟩
  · rw [Device.frontBits, hsame, Device.frontBits]
  · rw [Device.frontBytes, hsame, Device.frontBytes]
  · rw [Device.frontCkOk, hsame, Device.frontCkOk]
  · rw [Device.frontData, hsame, hcfg, Device.frontData]

end Sys2Proof.Machine
end

section
/-! The four decoders by their rows, and the encoder on what they answer (30_encoding.md R110 to R113). -/

namespace Sys2Proof.Machine

/-- A pattern is the one its number names. -/
theorem eq_ofNat_of_toNat_eq {w n : Nat} {x : BitVec w} (h : x.toNat = n) : x = BitVec.ofNat w n := by
  rw [← h, BitVec.ofNat_toNat, BitVec.setWidth_eq]

/-! ### TICK (30_encoding.md R110) -/

/-- The table of R110, by the three bits of the pattern. -/
theorem decodeTick_ofBool (seen q c d : Bool) :
    decodeTick (BitVec.ofBool seen ++ BitVec.ofBool q ++ BitVec.ofBool c) d =
      if seen = false then .tickFirst q c d
      else if q = false ∧ c = true then .edgeRise d
      else if q = true ∧ c = false then .edgeFall d
      else if c = false then .tickHoldLow d
      else .tickHoldHigh d := by
  cases seen <;> cases q <;> cases c <;> rfl

theorem eq_ofBool_append (p : BitVec 3) :
    p = BitVec.ofBool (p.getLsbD 2) ++ BitVec.ofBool (p.getLsbD 1) ++ BitVec.ofBool (p.getLsbD 0) := by
  decide +revert

theorem decodeTick_wf (p : BitVec 3) (d : Bool) : (decodeTick p d).wf = true ∧ (decodeTick p d).isEvent = false := by
  unfold decodeTick
  split <;> exact ⟨rfl, rfl⟩

/-- The encoder writes the pattern and the data level back. -/
theorem encode_decodeTick (p : BitVec 3) (d : Bool) : encode (decodeTick p d) = tickWords (p.setWidth 8) d := by
  rw [eq_ofBool_append p]
  generalize p.getLsbD 2 = seen, p.getLsbD 1 = q, p.getLsbD 0 = c
  cases seen <;> cases q <;> cases c <;> rfl

/-! ### HOST (30_encoding.md R111) -/

theorem eq_hostSelect (sel : BitVec 7) : sel = hostSelect (sel.getLsbD 6) (sel.setWidth 6) := by
  decide +revert

/-- The map of 20_memory.md R72: the twelve named registers, and four patterns with open low bits. -/
theorem hostAddr_cases (addr : BitVec 6) :
    (∃ n < 0x0C, addr = BitVec.ofNat 6 n) ∨ (∃ lo : BitVec 2, addr = 0b0011#4 ++ lo) ∨
      (∃ i : BitVec 4, addr = 0b01#2 ++ i) ∨ (∃ i : BitVec 4, addr = 0b10#2 ++ i) ∨
      ∃ lo : BitVec 4, addr = 0b11#2 ++ lo := by
  decide +revert

/-- An address from 0x0C on names no register: it is in a window or reserved (20_memory.md R72, R84). -/
theorem decodeHost_of_window (we : Bool) {addr : BitVec 6} (b : Byte) (h : 0x0C ≤ addr.toNat) :
    decodeHost (hostSelect we addr) b =
      if addr.toNat < 0x10 then .hostReserved0C0F we (addr.setWidth 2) b
      else if addr.toNat < 0x20 then
        if we then .hwFrontDataIgnored (addr.setWidth 4) b else .hrFrontData (addr.setWidth 4)
      else if addr.toNat < 0x30 then
        if we then .hwMsDataIgnored (addr.setWidth 4) b else .hrMsData (addr.setWidth 4)
      else .hostReserved303F we (addr.setWidth 4) b := by
  rw [decodeHost_hostSelect]
  cases we
  · show decodeHostRead addr b = _
    unfold decodeHostRead
    split
    case h_13 => rfl
    all_goals omega
  · show decodeHostWrite addr b = _
    unfold decodeHostWrite
    split
    case h_13 => rfl
    all_goals omega

theorem decodeHost_reserved0C0F (we : Bool) (lo : BitVec 2) (b : Byte) :
    decodeHost (hostSelect we (0b0011#4 ++ lo)) b = .hostReserved0C0F we lo b := by
  obtain ⟨hge, hlt⟩ : 0x0C ≤ (0b0011#4 ++ lo).toNat ∧ (0b0011#4 ++ lo).toNat < 0x10 := by decide +revert
  rw [decodeHost_of_window we b hge, if_pos hlt, BitVec.setWidth_append_eq_right]

theorem decodeHost_frontData (we : Bool) (i : BitVec 4) (b : Byte) :
    decodeHost (hostSelect we (0b01#2 ++ i)) b = if we then .hwFrontDataIgnored i b else .hrFrontData i := by
  obtain ⟨hge, hlt⟩ : 0x10 ≤ (0b01#2 ++ i).toNat ∧ (0b01#2 ++ i).toNat < 0x20 := by decide +revert
  rw [decodeHost_of_window we b (by omega), if_neg (by omega), if_pos hlt, BitVec.setWidth_append_eq_right]

theorem decodeHost_msData (we : Bool) (i : BitVec 4) (b : Byte) :
    decodeHost (hostSelect we (0b10#2 ++ i)) b = if we then .hwMsDataIgnored i b else .hrMsData i := by
  obtain ⟨hge, hlt⟩ : 0x20 ≤ (0b10#2 ++ i).toNat ∧ (0b10#2 ++ i).toNat < 0x30 := by decide +revert
  rw [decodeHost_of_window we b (by omega), if_neg (by omega), if_neg (by omega), if_pos hlt,
    BitVec.setWidth_append_eq_right]

theorem decodeHost_reserved303F (we : Bool) (lo : BitVec 4) (b : Byte) :
    decodeHost (hostSelect we (0b11#2 ++ lo)) b = .hostReserved303F we lo b := by
  have hge : 0x30 ≤ (0b11#2 ++ lo).toNat := by decide +revert
  rw [decodeHost_of_window we b (by omega), if_neg (by omega), if_neg (by omega), if_neg (by omega),
    BitVec.setWidth_append_eq_right]

/-- The select byte of an address with four open bits, as the rows of 30_encoding.md R111 write it. -/
theorem hostSelect_window (we : Bool) (hi : BitVec 2) (i : BitVec 4) :
    (hostSelect we (hi ++ i)).setWidth 8 = 0b0#1 ++ BitVec.ofBool we ++ hi ++ i := by
  decide +revert

theorem hostSelect_reserved0C0F (we : Bool) (lo : BitVec 2) :
    (hostSelect we (0b0011#4 ++ lo)).setWidth 8 = 0b0#1 ++ BitVec.ofBool we ++ 0b0011#4 ++ lo := by
  decide +revert

/-- No HOST row has an operand that is checked. -/
theorem decodeHost_wf (sel : BitVec 7) (b : Byte) :
    (decodeHost sel b).wf = true ∧ (decodeHost sel b).isEvent = false := by
  rw [eq_hostSelect sel]
  generalize sel.getLsbD 6 = we, sel.setWidth 6 = addr
  rcases hostAddr_cases addr with ⟨n, hn, rfl⟩ | ⟨lo, rfl⟩ | ⟨i, rfl⟩ | ⟨i, rfl⟩ | ⟨lo, rfl⟩
  · interval_cases n <;> cases we <;> exact ⟨rfl, rfl⟩
  · rw [decodeHost_reserved0C0F]
    exact ⟨rfl, rfl⟩
  · rw [decodeHost_frontData]
    cases we <;> exact ⟨rfl, rfl⟩
  · rw [decodeHost_msData]
    cases we <;> exact ⟨rfl, rfl⟩
  · rw [decodeHost_reserved303F]
    exact ⟨rfl, rfl⟩

/-- The encoder writes the select back, with a data byte that selects the same operation: the one given, or 0x00 for
a read, which has none of its own (43_host_ops.md R221). -/
theorem encode_decodeHost (sel : BitVec 7) (b : Byte) :
    ∃ w, encode (decodeHost sel b) = hostWords (sel.setWidth 8) w ∧ decodeHost sel w = decodeHost sel b := by
  rw [eq_hostSelect sel]
  generalize sel.getLsbD 6 = we, sel.setWidth 6 = addr
  rcases hostAddr_cases addr with ⟨n, hn, rfl⟩ | ⟨lo, rfl⟩ | ⟨i, rfl⟩ | ⟨i, rfl⟩ | ⟨lo, rfl⟩
  · interval_cases n <;> cases we <;> exact ⟨_, rfl, rfl⟩
  · simp only [decodeHost_reserved0C0F, hostSelect_reserved0C0F]
    exact ⟨b, rfl, rfl⟩
  · simp only [decodeHost_frontData, hostSelect_window]
    cases we <;> exact ⟨_, rfl, rfl⟩
  · simp only [decodeHost_msData, hostSelect_window]
    cases we <;> exact ⟨_, rfl, rfl⟩
  · simp only [decodeHost_reserved303F, hostSelect_window]
    cases we <;> exact ⟨b, rfl, rfl⟩

/-! ### CMD (30_encoding.md R112) -/

/-- A code is one of the four commands or reserved (43_host_ops.md R230, R241). -/
theorem cmdCode_cases (code : Byte) : (∃ n < 4, code = BitVec.ofNat 8 n) ∨ 4 ≤ code.toNat := by
  rcases Nat.lt_or_ge code.toNat 4 with hlt | hge
  · exact .inl ⟨code.toNat, hlt, eq_ofNat_of_toNat_eq rfl⟩
  · exact .inr hge

theorem decodeCmd_of_reserved {code : Byte} (h : 4 ≤ code.toNat) : decodeCmd code = .cmdReserved code := by
  unfold decodeCmd
  split
  case h_5 => rfl
  all_goals omega

theorem decodeCmd_wf (code : Byte) : (decodeCmd code).wf = true ∧ (decodeCmd code).isEvent = false := by
  rcases cmdCode_cases code with ⟨n, hn, rfl⟩ | hreserved
  · interval_cases n <;> exact ⟨rfl, rfl⟩
  · rw [decodeCmd_of_reserved hreserved]
    exact ⟨decide_eq_true hreserved, rfl⟩

theorem encode_decodeCmd (code : Byte) : encode (decodeCmd code) = cmdWords code := by
  rcases cmdCode_cases code with ⟨n, hn, rfl⟩ | hreserved
  · interval_cases n <;> rfl
  · rw [decodeCmd_of_reserved hreserved]
    rfl

/-! ### KEY (30_encoding.md R113) -/

/-- A code is a key, `/`, or unknown (44_keys.md R300, R330, R331). -/
theorem keyCode_cases (code : Byte) :
    (∃ k, keyOfCode code = some k) ∨ code = 0x2F#8 ∨ Instr.unknownKeyOk code = true := by
  rcases hkey : keyOfCode code with _ | k
  · by_cases hslash : code = 0x2F#8
    · exact .inr (.inl hslash)
    · exact .inr (.inr (by simp [Instr.unknownKeyOk, hkey, hslash]))
  · exact .inl ⟨k, rfl⟩

theorem decodeKey_of_key {code : Byte} {k : Key} (h : keyOfCode code = some k) :
    decodeKey code = keyInstr k (code.getLsbD 5) := by
  simp only [decodeKey, h]

theorem decodeKey_of_unknown {code : Byte} (h : Instr.unknownKeyOk code = true) :
    decodeKey code = .keyUnknownRejected code := by
  simp only [Instr.unknownKeyOk, Bool.and_eq_true, Option.isNone_iff_eq_none, decide_eq_true_eq] at h
  obtain ⟨hnone, hslash⟩ := h
  simp only [decodeKey, hnone, if_neg hslash]

theorem keyInstr_wf (k : Key) (lower : Bool) :
    (keyInstr k lower).wf = true ∧ (keyInstr k lower).isEvent = false := by
  cases k <;> exact ⟨rfl, rfl⟩

theorem decodeKey_wf (code : Byte) : (decodeKey code).wf = true ∧ (decodeKey code).isEvent = false := by
  rcases keyCode_cases code with ⟨k, hkey⟩ | rfl | hunknown
  · rw [decodeKey_of_key hkey]
    exact keyInstr_wf k _
  · exact ⟨rfl, rfl⟩
  · rw [decodeKey_of_unknown hunknown]
    exact ⟨hunknown, rfl⟩

/-- Each code of 44_keys.md R300 is the one the encoder writes for its key, with the letter case in bit 5. -/
theorem encode_keyInstr {code : Byte} {k : Key} (h : keyOfCode code = some k) :
    encode (keyInstr k (code.getLsbD 5)) = keyWords code := by
  unfold keyOfCode at h
  split at h <;> cases h
  all_goals
    rename_i hcode
    obtain rfl := eq_ofNat_of_toNat_eq hcode
    rfl

theorem encode_decodeKey (code : Byte) : encode (decodeKey code) = keyWords code := by
  rcases keyCode_cases code with ⟨k, hkey⟩ | rfl | hunknown
  · rw [decodeKey_of_key hkey, encode_keyInstr hkey]
  · rfl
  · rw [decodeKey_of_unknown hunknown]
    rfl

end Sys2Proof.Machine
end

section
/-! The byte decoder and the encoder are inverse to each other (30_encoding.md R110 to R113; the packing is log 18). -/

namespace Sys2Proof.Machine

/-! ### What the byte decoder accepts -/

theorem decode_tick (p : BitVec 3) (d : Bool) (rest : List Byte) :
    decode .tick (p.setWidth 8 :: bitByte d :: rest) = .ok (decodeTick p d, rest) := by
  obtain ⟨hfits, hpattern⟩ : ¬ 8 ≤ (p.setWidth 8).toNat ∧ (p.setWidth 8).setWidth 3 = p := by decide +revert
  obtain ⟨hbit, hlevel⟩ : ¬ 2 ≤ (bitByte d).toNat ∧ (bitByte d).getLsbD 0 = d := by decide +revert
  rw [decode, if_neg hfits, if_neg hbit, hpattern, hlevel]

theorem decode_host (sel : BitVec 7) (b : Byte) (rest : List Byte) :
    decode .host (sel.setWidth 8 :: b :: rest) = .ok (decodeHost sel b, rest) := by
  obtain ⟨hfits, hselect⟩ : ¬ 0x80 ≤ (sel.setWidth 8).toNat ∧ (sel.setWidth 8).setWidth 7 = sel := by
    decide +revert
  rw [decode, if_neg hfits, hselect]

theorem decode_cmd (code : Byte) (rest : List Byte) : decode .cmd (code :: rest) = .ok (decodeCmd code, rest) := rfl

theorem decode_key (code : Byte) (rest : List Byte) : decode .key (code :: rest) = .ok (decodeKey code, rest) := rfl

/-- The bytes that the decoder accepts before `rest`, with the operation they stand for: one case per format that has
an encoding. -/
inductive Accepts (rest : List Byte) : Format → List Byte → Instr → Prop
  | tick (p : BitVec 3) (d : Bool) : Accepts rest .tick (p.setWidth 8 :: bitByte d :: rest) (decodeTick p d)
  | host (sel : BitVec 7) (b : Byte) : Accepts rest .host (sel.setWidth 8 :: b :: rest) (decodeHost sel b)
  | cmd (code : Byte) : Accepts rest .cmd (code :: rest) (decodeCmd code)
  | key (code : Byte) : Accepts rest .key (code :: rest) (decodeKey code)

theorem accepts_of_decode {f : Format} {bytes rest : List Byte} {i : Instr} (h : decode f bytes = .ok (i, rest)) :
    Accepts rest f bytes i := by
  unfold decode at h
  split at h
  case h_2 p d tail =>
    split_ifs at h with hp hd
    cases h
    have hpattern : (p.setWidth 3).setWidth 8 = p := by decide +revert
    have hlevel : bitByte (d.getLsbD 0) = d := by decide +revert
    have haccepts := Accepts.tick (rest := rest) (p.setWidth 3) (d.getLsbD 0)
    rwa [hpattern, hlevel] at haccepts
  case h_3 a b tail =>
    split_ifs at h with ha
    cases h
    have hselect : (a.setWidth 7).setWidth 8 = a := by decide +revert
    have haccepts := Accepts.host (rest := rest) (a.setWidth 7) b
    rwa [hselect] at haccepts
  case h_4 => cases h; exact .cmd _
  case h_5 => cases h; exact .key _
  all_goals cases h

/-- Exactly these bytes are decoded. -/
theorem decode_eq_ok_iff {f : Format} {bytes rest : List Byte} {i : Instr} :
    decode f bytes = .ok (i, rest) ↔ Accepts rest f bytes i := by
  refine ⟨accepts_of_decode, fun h => ?_⟩
  cases h with
  | tick p d => exact decode_tick p d rest
  | host sel b => exact decode_host sel b rest
  | cmd code => exact decode_cmd code rest
  | key code => exact decode_key code rest

/-! ### From bytes to operations and back -/

/-- Settles O4: each word is evaluated. -/
theorem wordsOfEachFormatDecode : Obligations.WordsOfEachFormatDecode :=
  ⟨rfl, rfl, rfl, rfl, rfl, rfl, rfl, rfl, rfl⟩

/-- Settles O2, by the format. -/
theorem decodedOperationIsWellFormed : Obligations.DecodedOperationIsWellFormed := by
  intro f bytes rest i h
  cases decode_eq_ok_iff.mp h with
  | tick p d => exact decodeTick_wf p d
  | host sel b => exact decodeHost_wf sel b
  | cmd code => exact decodeCmd_wf code
  | key code => exact decodeKey_wf code

/-- Settles O3, by the format: the encoder writes the select of whatever the decoder answers. -/
theorem encoderKeepsEverySelectBit : Obligations.EncoderKeepsEverySelectBit := by
  intro f b bytes rest i h
  cases decode_eq_ok_iff.mp h with
  | tick p d => exact ⟨_, encode_decodeTick p d⟩
  | host sel w =>
    obtain ⟨w', henc, -⟩ := encode_decodeHost sel w
    exact ⟨_, henc⟩
  | cmd => exact ⟨_, encode_decodeCmd b⟩
  | key => exact ⟨_, encode_decodeKey b⟩

/-! ### From operations to bytes and back -/

/-- The operation has an encoding that is decoded to it, whatever bytes follow. -/
def RoundTrips (i : Instr) : Prop :=
  ∀ rest : List Byte, ∃ f bytes, encode i = some (f, bytes) ∧ decode f (bytes ++ rest) = .ok (i, rest)

/-- What a decoder answers round-trips; this lemma and the next three say so for each format. -/
theorem RoundTrips.of_decodeTick {p : BitVec 3} {d : Bool} {i : Instr} (h : decodeTick p d = i) : RoundTrips i := by
  subst h
  exact fun rest => ⟨_, _, encode_decodeTick p d, decode_tick p d rest⟩

theorem RoundTrips.of_decodeHost {sel : BitVec 7} {b : Byte} {i : Instr} (h : decodeHost sel b = i) :
    RoundTrips i := by
  subst h
  obtain ⟨w, henc, hsame⟩ := encode_decodeHost sel b
  rw [← hsame] at henc ⊢
  exact fun rest => ⟨_, _, henc, decode_host sel w rest⟩

theorem RoundTrips.of_decodeCmd {code : Byte} {i : Instr} (h : decodeCmd code = i) : RoundTrips i := by
  subst h
  exact fun rest => ⟨_, _, encode_decodeCmd code, decode_cmd code rest⟩

theorem RoundTrips.of_decodeKey {code : Byte} {i : Instr} (h : decodeKey code = i) : RoundTrips i := by
  subst h
  exact fun rest => ⟨_, _, encode_decodeKey code, decode_key code rest⟩

/-- Every row but the events is the answer of a decoder; where no bit of the pattern is open, both ways are an
evaluation. -/
theorem RoundTrips.of_wf {i : Instr} (hwf : i.wf = true) (hevent : i.isEvent = false) : RoundTrips i := by
  cases i with
  | sampleP | sampleM | eof | disc | enqueue => cases hevent
  | tickFirst q c d => exact .of_decodeTick (decodeTick_ofBool false q c d)
  | edgeRise d => exact .of_decodeTick (p := 0b101#3) (d := d) rfl
  | edgeFall d => exact .of_decodeTick (p := 0b110#3) (d := d) rfl
  | tickHoldLow d => exact .of_decodeTick (p := 0b100#3) (d := d) rfl
  | tickHoldHigh d => exact .of_decodeTick (p := 0b111#3) (d := d) rfl
  | hrFrontData i => exact .of_decodeHost (decodeHost_frontData false i 0x00#8)
  | hwFrontDataIgnored i v => exact .of_decodeHost (decodeHost_frontData true i v)
  | hrMsData i => exact .of_decodeHost (decodeHost_msData false i 0x00#8)
  | hwMsDataIgnored i v => exact .of_decodeHost (decodeHost_msData true i v)
  | hostReserved0C0F we lo v => exact .of_decodeHost (decodeHost_reserved0C0F we lo v)
  | hostReserved303F we lo v => exact .of_decodeHost (decodeHost_reserved303F we lo v)
  | cmdReserved code => exact .of_decodeCmd (decodeCmd_of_reserved (of_decide_eq_true hwf))
  | keyUnknownRejected code => exact .of_decodeKey (decodeKey_of_unknown hwf)
  | keyFire lower | keyAux lower | keyPanic lower | keyStay lower | keyAway lower | keyNight lower | keyChime lower
  | keyReset lower | keyExit lower => cases lower <;> exact fun rest => ⟨_, _, rfl, rfl⟩
  | _ => exact fun rest => ⟨_, _, rfl, rfl⟩

/-- Settles O1. -/
theorem decodeOfEncodeIsTheOperation : Obligations.DecodeOfEncodeIsTheOperation :=
  fun _ rest hwf hevent => RoundTrips.of_wf hwf hevent rest

end Sys2Proof.Machine
end

section
/-! The selected rows as operations, and the bytes that wire bits assemble to (30_encoding.md R102, R110, R112,
R113). -/

namespace Sys2Proof.Machine

/-! ### Ticks (30_encoding.md R110) -/

/-- Settles O5: the select is `{clk_seen, clk_q, c}`, and the decoder is R110's table. -/
theorem tickIsSelectedByClockHistory : Obligations.TickIsSelectedByClockHistory :=
  fun v c d => congrArg some (decodeTick_ofBool v.clkSeen v.clkQ c d)

/-! ### Commands (30_encoding.md R112) -/

theorem exec_decodeCmd (code : Byte) (s : State) : exec (decodeCmd code) s = .next (s.command code) := by
  rcases cmdCode_cases code with ⟨n, hn, rfl⟩ | hreserved
  · interval_cases n <;> rfl
  · rw [decodeCmd_of_reserved hreserved, s.command_reserved code hreserved]
    rfl

/-- Settles O41: both are `Command(v)`. -/
theorem commandWriteRunsItsCommandRow : Obligations.CommandWriteRunsItsCommandRow :=
  fun v s => ⟨s.command v, rfl, exec_decodeCmd v s⟩

/-! ### Characters (30_encoding.md R113) -/

theorem exec_keyInstr (k : Key) (lower : Bool) (s : State) :
    exec (keyInstr k lower) s = .next (s.requestKey k) := by
  cases k <;> rfl

/-- `/` and an unknown code are rejected alike (44_keys.md R330, R331). -/
theorem exec_decodeKey_of_none {code : Byte} (h : keyOfCode code = none) (s : State) :
    exec (decodeKey code) s = .next s.rejectKey := by
  simp only [decodeKey, h]
  split <;> rfl

/-- Settles O43: a key's row is its request, any other row the rejection. -/
theorem writeKeyRunsTheRowOfItsCharacter : Obligations.WriteKeyRunsTheRowOfItsCharacter := by
  intro s
  refine ⟨s.writeKey, rfl, ?_⟩
  rcases s.writeKey_cases with ⟨k, hkey, heq⟩ | ⟨hnone, heq⟩ <;> rw [heq]
  · rw [decodeKey_of_key hkey, exec_keyInstr]
  · exact exec_decodeKey_of_none hnone s

/-! ### Wire bits (30_encoding.md R102) -/

theorem set_byteAt_self (data : List Byte) (j : Nat) : data.set j (byteAt data j) = data := by
  by_cases hj : j < data.length
  · simp [byteAt, hj]
  · exact List.set_eq_of_length_le (by omega)

/-- Wire bits that all go to byte j are shifted into it one by one and touch no other byte. -/
theorem foldl_appendBit_of_byteIndex {j : Nat} (bits : List Bool) (data : List Byte) (n : Nat)
    (hbyte : ∀ k < bits.length, byteIndex (n + k) = j) :
    (bits.zipIdx n).foldl (fun a p => appendBit a p.2 p.1) data =
      data.set j (bits.foldl shiftIn (byteAt data j)) := by
  induction bits generalizing data n with
  | nil => exact (set_byteAt_self data j).symm
  | cons b bits ih =>
    have hfirst : appendBit data n b = data.set j (shiftIn (byteAt data j) b) := by
      have hj : byteIndex n = j := hbyte 0 (Nat.zero_lt_succ _)
      rw [appendBit, hj]
    have hrest : ∀ k < bits.length, byteIndex (n + 1 + k) = j := by
      intro k hk
      rw [Nat.add_assoc, Nat.add_comm 1 k]
      exact hbyte (k + 1) (Nat.succ_lt_succ hk)
    rw [List.zipIdx_cons, List.foldl_cons, List.foldl_cons, hfirst, ih _ _ hrest, List.set_set, byteAt_set]
    by_cases hj : j < data.length
    · rw [if_pos ⟨rfl, hj⟩]
    · rw [List.set_eq_of_length_le (by omega), List.set_eq_of_length_le (by omega)]

theorem foldl_shiftIn_msbFirst (b : Byte) : (msbFirst b).foldl shiftIn 0#8 = b := by
  decide +revert

/-- Eight bits from the first wire bit of a clear byte leave the byte sent. -/
theorem foldl_appendBit_msbFirst {j n : Nat} {data : List Byte} (b : Byte) (hzero : byteAt data j = 0#8)
    (hbyte : ∀ k < 8, byteIndex (n + k) = j) :
    ((msbFirst b).zipIdx n).foldl (fun a p => appendBit a p.2 p.1) data = data.set j b := by
  rw [foldl_appendBit_of_byteIndex (msbFirst b) data n hbyte, hzero, foldl_shiftIn_msbFirst]

/-- Settles O20: `ByteIndex` sends wire bits 0 to 7 to byte 0, bit 8 to byte 1 and each eight from 9 on to one byte. -/
theorem wireBitsAssembleMsbFirst : Obligations.WireBitsAssembleMsbFirst := by
  rintro data b bits rfl
  refine ⟨fun hzero => ?_, fun j hj hzero => ?_, fun stop hzero => ?_⟩
  · refine foldl_appendBit_msbFirst b hzero fun k hk => ?_
    rw [byteIndex, if_pos (by omega)]
  · refine foldl_appendBit_msbFirst b hzero fun k hk => ?_
    rw [byteIndex, if_neg (by omega), if_neg (by omega)]
    omega
  · have hstop : appendBit data 8 stop = data.set 1 (shiftIn (byteAt data 1) stop) := rfl
    rw [hstop, hzero]
    cases stop <;> rfl

end Sys2Proof.Machine
end

section
/-! Steps under a valid configuration, and the parts of a tick that are whole operations of their own: the edges and the
samples (40_sampler.md R140 to R144, R150, R154). -/

namespace Sys2Proof.Machine

/-! ### One step (20_memory.md R76) -/

/-- Settles O7: every operation and reset keep the parameters, and the queue loses the input taken. -/
theorem stepAlwaysAnswersNext : Obligations.StepAlwaysAnswersNext := by
  intro s hwf
  rcases hin : s.inputs with _ | ⟨x, rest⟩
  · refine ⟨s, ?_, rfl, hin⟩
    simp only [step, configRefusal_of_wf hwf, hin]
  · rw [step_cons hwf hin]
    rcases s.dev.selects x with _ | i
    · exact ⟨_, rfl, rfl, rfl⟩
    · exact exec_keeps_machine i (s.begin rest)

/-- Settles O6: the words of a tick or an access are those of the operation it selects. -/
theorem stepRunsTheDecodedOperation : Obligations.StepRunsTheDecodedOperation := by
  intro s x rest hwf hin hrst
  cases x with
  | rst => exact absurd rfl hrst
  | tick c d =>
    exact ⟨_, _, _, rfl, decode_tick (s.dev.tickPattern c) d [], (decodeTick_wf _ d).1, step_of_selects hwf hin rfl⟩
  | host we addr b =>
    exact ⟨_, _, _, rfl, decode_host (hostSelect we addr) b [], (decodeHost_wf _ b).1, step_of_selects hwf hin rfl⟩

/-- Settles O13: before the first tick the select is `0xx`. -/
theorem firstTickOnlyLoadsTheClock : Obligations.FirstTickOnlyLoadsTheClock := by
  intro q c d s
  refine ⟨rfl, fun rest hwf hseen hin => ?_⟩
  have hsel : s.dev.selects (.tick c d) = some (.tickFirst s.dev.clkQ c d) := by
    rw [tickIsSelectedByClockHistory, if_pos hseen]
  exact step_of_selects hwf hin hsel

/-! ### The edges (40_sampler.md R142 to R144) -/

/-- Settles O14: without the last bit the writer stays; with it, an alarm key's first write goes on to the second and
any other write is done. -/
theorem risingEdgeReleasesAndCompletes : Obligations.RisingEdgeReleasesAndCompletes := by
  intro d s
  show Host.Outcome.next ((s.withDev s.dev.edgeRise).latchClock true) = _
  rcases s.dev.edgeRise_cases with ⟨hlast, heq⟩ | ⟨hlast, heq⟩ <;> rw [heq]
  · simp [State.latchClock, State.withDev, Device.latchClock, Device.risingRelease, Device.edgeCommon, hlast]
  · rcases s.dev.edgeCommon.risingRelease.writeComplete_cases with ⟨halarm, hsecond, hwc⟩ | ⟨hdone, hwc⟩ <;> rw [hwc]
    · have halarm : s.dev.wrAlarm = true := halarm
      have hsecond : s.dev.wrSecond = false := hsecond
      simp [State.latchClock, State.withDev, Device.latchClock, Device.risingRelease, Device.edgeCommon, hlast, halarm,
        hsecond]
    · have hdone : (s.dev.wrAlarm && !s.dev.wrSecond) = false := by
        simpa [Device.risingRelease, Device.edgeCommon, imp_iff_not_or] using hdone
      simp [State.latchClock, State.withDev, Device.latchClock, Device.risingRelease, Device.edgeCommon, hlast, hdone]

/-- WriterEvaluate opens a window in a frame that matches, at the request's start (42_writer.md R205, R206). -/
theorem Device.writerEvaluate_of_opens {v : Device} (hp : v.wrPending = true) (hv : v.vkpEn = true)
    (hs : v.synced = true) (ha : v.wrActive = false) (hb : v.pBits = v.wrStart) (hm : v.frameMatch = true) :
    v.writerEvaluate = Device.presentBit { v with wrActive := true } 0 := by
  simp [Device.writerEvaluate, hp, hv, hs, ha, hm, hb]

/-- Settles O15: opening, continuing and neither are the three cases of WriterEvaluate. -/
theorem fallingEdgePresentsOnePatternBit : Obligations.FallingEdgePresentsOnePatternBit := by
  intro d s v live opens continues
  obtain ⟨a, l, w, hframe⟩ := v.edgeCommon.writerEvaluate_frame
  refine ⟨(s.withDev v.edgeFall).latchClock false, rfl, ?_, ?_, ?_, ?_⟩
  · rw [Device.edgeFall, hframe]
    rfl
  · rintro ⟨⟨hp, hv, hs⟩, ha, hb, hm⟩
    have hopen := Device.writerEvaluate_of_opens (v := v.edgeCommon) hp hv hs ha hb (v.frameMatch_iff.mpr hm)
    rw [Device.edgeFall, hopen]
    exact ⟨rfl, rfl, by simp [Device.presentBit, Device.latchClock, Device.edgeCommon]⟩
  · rintro k ⟨⟨hp, hv, hs⟩, ha, hlo, hhi⟩ hk
    have hbit := Device.writerEvaluate_of_active (v := v.edgeCommon) hp hv hs ha hlo hhi
    have hk' : v.edgeCommon.pBits - v.edgeCommon.wrStart = k := Nat.sub_eq_of_eq_add' hk
    rw [Device.edgeFall, hbit, hk']
    exact ⟨ha, rfl, by simp [Device.presentBit, Device.latchClock, Device.edgeCommon, or_comm]⟩
  · intro hopens hcontinues
    rcases v.edgeCommon.writerEvaluate_cases with heq | ⟨hp, hv, hs, ha, hm, hb, -⟩ | ⟨hp, hv, hs, ha, hlo, hhi, -⟩
    · rw [Device.edgeFall, heq]
      exact ⟨rfl, rfl, rfl⟩
    · exact absurd ⟨⟨hp, hv, hs⟩, ha, hb, v.frameMatch_iff.mp hm⟩ hopens
    · exact absurd ⟨⟨hp, hv, hs⟩, ha, hlo, hhi⟩ hcontinues

/-! ### The samples (40_sampler.md R150, R152, R154) -/

/-- Shifting a bit in is doubling the byte and adding the bit, mod 256. -/
theorem shiftIn_eq (x : Byte) (b : Bool) : shiftIn x b = x * 2#8 + (if b then 1#8 else 0#8) := by
  decide +revert

/-- `ByteIndex` and `ShiftIn` written out (00_scope.md R12). -/
theorem appendBit_eq (data : List Byte) (n : Nat) (b : Bool) :
    appendBit data n b =
      let j := if n < 8 then 0 else if n = 8 then 1 else 2 + (n - 9) / 8
      data.set j (byteAt data j * 2#8 + (if b then 1#8 else 0#8)) := by
  rw [appendBit, shiftIn_eq]
  rfl

/-- Settles O18. -/
theorem panelSampleAppendsOneBit : Obligations.PanelSampleAppendsOneBit := by
  intro line s n j
  show Host.Outcome.next (s.withDev (s.dev.sampleP s.cfg line)) = _
  rcases s.dev.sampleP_cases s.cfg line with ⟨hs, hroom, heq⟩ | ⟨hnone, heq⟩ <;> rw [heq]
  · rw [if_pos ⟨hs, hroom⟩, appendBit_eq]
    rfl
  · rw [if_neg, State.withDev_self]
    rintro ⟨hs, hroom⟩
    rcases hnone with hns | hfull
    · exact absurd hs (ne_true_of_eq_false hns)
    · exact absurd hroom (Nat.not_lt.mpr hfull)

/-- Settles O19. -/
theorem moduleSampleAppendsAndDetects : Obligations.ModuleSampleAppendsAndDetects := by
  intro line s n j
  show Host.Outcome.next (s.withDev (s.dev.sampleM s.cfg line)) = _
  rcases s.dev.sampleM_cases s.cfg line with ⟨hs, hmod, hroom, heq⟩ | ⟨hs, hmod, hfull, heq⟩ | ⟨hnone, heq⟩ <;>
    rw [heq]
  · have hroom : n < 8 * s.cfg.readSize - 7 := hroom
    rw [if_pos ⟨hs, hmod⟩, if_pos hroom, if_pos hroom, appendBit_eq]
    rfl
  · have hfull : ¬ n < 8 * s.cfg.readSize - 7 := Nat.not_lt.mpr hfull
    rw [if_pos ⟨hs, hmod⟩, if_neg hfull, if_neg hfull]
    rfl
  · rw [if_neg (by simpa [imp_iff_not_or] using hnone), State.withDev_self]

end Sys2Proof.Machine
end

section
/-! The events of 40_sampler.md: EOF in its three arms (R158 to R163) and DISC (R164). -/

namespace Sys2Proof.Machine

/-! ### EOF without a whole frame (40_sampler.md R158, R159) -/

/-- Settles O21. -/
theorem firstBoundaryOnlySynchronises : Obligations.FirstBoundaryOnlySynchronises := by
  intro s hunsynced
  show Host.Outcome.next s.eof = _
  rcases s.eof_cases with ⟨-, heq⟩ | ⟨hs, -⟩ | ⟨hs, -⟩
  · rw [heq]
    rfl
  · exact absurd hs (ne_true_of_eq_false hunsynced)
  · exact absurd hs (ne_true_of_eq_false hunsynced)

/-- Settles O22. -/
theorem shortFrameIsDiscarded : Obligations.ShortFrameIsDiscarded := by
  intro s hsynced hshort
  show Host.Outcome.next s.eof = _
  rcases s.eof_cases with ⟨hs, -⟩ | ⟨-, -, heq⟩ | ⟨-, hlong, -⟩
  · exact absurd hsynced (ne_true_of_eq_false hs)
  · rw [heq]
    rfl
  · exact absurd hshort (Nat.not_lt.mpr hlong)

/-! ### DISC (40_sampler.md R164) -/

/-- DISC marks X4 exactly when the connection is lost by it. -/
theorem State.disc_out (s : State) :
    s.disc.out =
      { s.out with raised := if s.dev.connected then s.out.raised ++ [.busDisconnect] else s.out.raised } := by
  rcases hc : s.dev.connected <;> simp [State.disc, State.dropConnection, hc]

/-- Settles O25: the flags fall alike at both clock levels; the assembly goes only with the clock low. -/
theorem disconnectAbandonsWriteAndCutFrame : Obligations.DisconnectAbandonsWriteAndCutFrame := by
  intro s
  show Host.Outcome.next s.disc = _
  refine congrArg _ (State.ext_fields s.disc_cfg ?_ s.disc_inputs s.disc_out)
  rcases s.disc_dev_cases with ⟨hq, heq⟩ | ⟨hq, heq⟩ <;> rw [heq]
  · simp [hq, Device.disconnected, Device.abandonWrite]
  · simp [hq, Device.disconnected, Device.abandonWrite, Device.clearAssembly, zeroBytes]

/-! ### EOF of a whole frame (40_sampler.md R158, R160, R162) -/

/-- EOF's third arm, taken. -/
theorem State.eof_of_whole {s : State} (hsynced : s.dev.synced = true) (hlong : s.cfg.minFrameBits ≤ s.dev.pBits) :
    s.eof = s.deliverFrame.withDev (s.deliverFrame.dev.endFrame s.cfg) := by
  rcases s.eof_cases with ⟨hs, -⟩ | ⟨-, hshort, -⟩ | ⟨-, -, heq⟩
  · exact absurd hsynced (ne_true_of_eq_false hs)
  · exact absurd hlong (Nat.not_le.mpr hshort)
  · exact heq

/-- Two slots never remember the same command, so the list names the command's slot (00_scope.md R4). -/
theorem filterIndex_eq_some_iff {c : Config} (hwf : c.wf = true) {cmd : Byte} {k : Nat} :
    filterIndex c cmd = some k ↔ c.periodicCmds[k]? = some cmd := by
  obtain ⟨-, -, -, -, -, -, -, -, -, hnodup⟩ := Config.wf_bounds hwf
  refine ⟨filterIndex_some, fun hk => ?_⟩
  rcases hidx : filterIndex c cmd with _ | j
  · exact absurd (List.mem_of_getElem? hk) (filterIndex_none hidx)
  · have hj := filterIndex_some hidx
    obtain ⟨hlt, -⟩ := List.getElem?_eq_some_iff.mp hj
    rw [(List.getElem?_inj hlt hnodup).mp (hj.trans hk.symm)]

/-- The frame is the one its command's filter slot remembers (40_sampler.md R160). -/
def Device.Redundant (c : Config) (v : Device) : Prop :=
  ∃ k : Nat, c.periodicCmds[k]? = some v.commandByte ∧ v.filt[k]? = some ⟨true, v.pData⟩

theorem Device.filterSkips_of_filterIndex {c : Config} {v : Device} {k : Nat}
    (h : filterIndex c v.commandByte = some k) :
    v.filterSkips c = ((v.filterAt k).valid && decide ((v.filterAt k).data = v.pData)) := by
  simp only [Device.filterSkips, h]

theorem Device.filterAt_eq_iff {v : Device} {k : Nat} {data : List Byte} :
    (v.filterAt k).valid = true ∧ (v.filterAt k).data = data ↔ v.filt[k]? = some ⟨true, data⟩ := by
  rcases hk : v.filt[k]? with _ | ⟨valid, bytes⟩ <;> simp [Device.filterAt, List.getD, hk]

/-- RedundancyFilter skips exactly the redundant frames. -/
theorem Device.filterSkips_iff {c : Config} (hwf : c.wf = true) (v : Device) :
    v.filterSkips c = true ↔ v.Redundant c := by
  simp only [Device.Redundant, ← filterIndex_eq_some_iff hwf]
  rcases hk : filterIndex c v.commandByte with _ | k
  · simp [Device.filterSkips, hk]
  · simp [Device.filterSkips_of_filterIndex hk, ← Device.filterAt_eq_iff]

theorem Device.filterUpdate_of_skips {c : Config} {v : Device} (h : v.filterSkips c = true) : v.filterUpdate c = v := by
  rcases v.filterUpdate_cases c with ⟨-, heq⟩ | ⟨-, -, hnew, -⟩
  · exact heq
  · exact absurd h (ne_true_of_eq_false hnew)

theorem Device.filterUpdate_of_new {c : Config} {v : Device} {k : Nat} (hk : filterIndex c v.commandByte = some k)
    (hnew : v.filterSkips c = false) : v.filterUpdate c = { v with filt := v.filt.set k ⟨true, v.pData⟩ } := by
  rcases v.filterUpdate_cases c with ⟨hnone | hskips, -⟩ | ⟨j, hj, -, heq⟩
  · exact absurd (hnone.symm.trans hk) nofun
  · exact absurd hskips (ne_true_of_eq_false hnew)
  · cases hj.symm.trans hk
    exact heq

theorem Device.filterUpdate_of_notMem {c : Config} {v : Device} (h : v.commandByte ∉ c.periodicCmds) :
    v.filterUpdate c = v := by
  rcases v.filterUpdate_cases c with ⟨-, heq⟩ | ⟨k, hk, -, -⟩
  · exact heq
  · exact absurd (List.mem_of_getElem? (filterIndex_some hk)) h

/-- Afterwards the slot of a periodic command remembers the frame, whether or not it did before. -/
theorem Device.filterUpdate_remembers {c : Config} {v : Device} {k : Nat} (hk : filterIndex c v.commandByte = some k)
    (hlt : k < v.filt.length) : (v.filterUpdate c).filt[k]? = some ⟨true, v.pData⟩ := by
  rcases hskips : v.filterSkips c
  · rw [Device.filterUpdate_of_new hk hskips]
    exact List.getElem?_set_self hlt
  · rw [Device.filterUpdate_of_skips hskips]
    rw [Device.filterSkips_of_filterIndex hk, Bool.and_eq_true, decide_eq_true_eq] at hskips
    exact Device.filterAt_eq_iff.mp hskips

/-- The filter and the FIFO at the boundary of a whole frame (40_sampler.md R158): a frame that is skipped goes nowhere,
any other is remembered and enqueued. -/
def State.fileFrame (s : State) : State :=
  if s.dev.filterSkips s.cfg then s
  else (s.withDev (s.dev.filterUpdate s.cfg)).enqueue s.dev.pData s.dev.pBits

theorem State.fileFrame_of_skips {s : State} (h : s.dev.filterSkips s.cfg = true) : s.fileFrame = s := if_pos h

theorem State.fileFrame_of_new {s : State} (h : s.dev.filterSkips s.cfg = false) :
    s.fileFrame = (s.withDev (s.dev.filterUpdate s.cfg)).enqueue s.dev.pData s.dev.pBits :=
  if_neg (ne_true_of_eq_false h)

/-- EOF's third arm is the filing and the snapshot after it. -/
theorem State.deliverFrame_eq (s : State) : s.deliverFrame = s.fileFrame.withDev s.fileFrame.dev.moduleSnapshot := by
  rcases s.deliverFrame_cases with ⟨hskips, heq⟩ | ⟨hnew, heq⟩ <;> rw [heq]
  · rw [State.fileFrame_of_skips hskips, Device.filterUpdate_of_skips hskips]
  · obtain ⟨f, hf⟩ := s.dev.filterUpdate_frame s.cfg
    rw [State.fileFrame_of_new hnew, hf]

/-- The elements that the filing of a frame writes. -/
def Device.filed (v : Device) : List FilterSlot × List FrameSlot × Nat × Nat × Bool :=
  (v.filt, v.slots, v.qHead, v.qLen, v.overflow)

/-- The elements that the module snapshot writes (10_state.md R37). -/
def Device.snapshot (v : Device) : List Byte × Nat × Byte × Bool := (v.msData, v.msBits, v.msCmd, v.msValid)

theorem Device.moduleSnapshot_filed (v : Device) : v.moduleSnapshot.filed = v.filed := by
  obtain ⟨d, n, k, w, heq⟩ := v.moduleSnapshot_frame
  rw [heq]
  rfl

theorem Device.moduleSnapshot_snapshot (v : Device) :
    v.moduleSnapshot.snapshot =
      if v.modEn = true ∧ v.mDetect = true then (v.mData, v.mBits, v.commandByte, true) else v.snapshot := by
  rcases v.moduleSnapshot_cases with ⟨hmod, hdetect, heq⟩ | ⟨hnone, heq⟩ <;> rw [heq]
  · rw [if_pos ⟨hmod, hdetect⟩]
    rfl
  · rw [if_neg (by simpa [imp_iff_not_or] using hnone)]

theorem State.fileFrame_frame (s : State) :
    ∃ f q h l o, s.fileFrame.dev =
      { s.dev with filt := f, slots := q, qHead := h, qLen := l, overflow := o } := by
  rcases hskips : s.dev.filterSkips s.cfg
  · obtain ⟨f, hf⟩ := s.dev.filterUpdate_frame s.cfg
    obtain ⟨q, h, l, o, hq⟩ := (s.withDev (s.dev.filterUpdate s.cfg)).enqueue_frame s.dev.pData s.dev.pBits
    rw [State.fileFrame_of_new hskips, hq, State.withDev_dev, hf]
    exact ⟨_, _, _, _, _, rfl⟩
  · rw [State.fileFrame_of_skips hskips]
    exact ⟨_, _, _, _, _, rfl⟩

/-- The filing leaves the filter memory as RedundancyFilter does, whether or not the FIFO had room. -/
theorem State.fileFrame_filt (s : State) : s.fileFrame.dev.filt = (s.dev.filterUpdate s.cfg).filt := by
  rcases hskips : s.dev.filterSkips s.cfg
  · rw [State.fileFrame_of_new hskips]
    rcases (s.withDev (s.dev.filterUpdate s.cfg)).enqueue_cases s.dev.pData s.dev.pBits with ⟨-, heq⟩ | ⟨-, heq⟩ <;>
      rw [heq] <;> rfl
  · rw [State.fileFrame_of_skips hskips, Device.filterUpdate_of_skips hskips]

section WholeFrame

variable {s : State} (hsynced : s.dev.synced = true) (hlong : s.cfg.minFrameBits ≤ s.dev.pBits)

include hsynced hlong

theorem State.eof_filed : s.eof.dev.filed = s.fileFrame.dev.filed := by
  rw [State.eof_of_whole hsynced hlong, State.deliverFrame_eq]
  exact Device.moduleSnapshot_filed _

theorem State.eof_filt : s.eof.dev.filt = (s.dev.filterUpdate s.cfg).filt :=
  (congrArg Prod.fst (State.eof_filed hsynced hlong)).trans s.fileFrame_filt

theorem State.eof_out : s.eof.out = s.fileFrame.out := by
  rw [State.eof_of_whole hsynced hlong, State.deliverFrame_eq]
  rfl

/-- The snapshot is that of the frame as it was assembled, whatever the filing did with it. -/
theorem State.eof_snapshot :
    s.eof.dev.snapshot =
      if s.dev.modEn = true ∧ s.dev.mDetect = true then (s.dev.mData, s.dev.mBits, s.dev.commandByte, true)
      else s.dev.snapshot := by
  obtain ⟨f, q, h, l, o, hfile⟩ := s.fileFrame_frame
  rw [State.eof_of_whole hsynced hlong, State.deliverFrame_eq]
  refine (Device.moduleSnapshot_snapshot _).trans ?_
  rw [hfile]
  rfl

end WholeFrame

/-- What ENQUEUE answers of the filed elements and the trace, full and with room (41_fifo_checksum.md R182). -/
theorem State.enqueue_filed (s : State) (data : List Byte) (n : Nat) :
    ((s.enqueue data n).dev.filed, (s.enqueue data n).out) =
      if s.dev.qLen = s.cfg.queueCap then
        ((s.dev.filt, s.dev.slots, s.dev.qHead, s.dev.qLen, true),
          { s.out with raised := s.out.raised ++ [.queueOverflow] })
      else
        ((s.dev.filt, s.dev.slots.set s.dev.qHead ⟨data, n, byteCount n⟩, (s.dev.qHead + 1) % s.cfg.queueCap,
          s.dev.qLen + 1, s.dev.overflow), s.out) := by
  rcases s.enqueue_cases data n with ⟨hfull, heq⟩ | ⟨hroom, heq⟩ <;> rw [heq]
  · rw [if_pos hfull]
    rfl
  · rw [if_neg hroom]
    rfl

/-- What the filing of a frame that is not skipped leaves. -/
theorem State.fileFrame_filed_of_new {s : State} (hnew : s.dev.filterSkips s.cfg = false) :
    (s.fileFrame.dev.filed, s.fileFrame.out) =
      if s.dev.qLen = s.cfg.queueCap then
        (((s.dev.filterUpdate s.cfg).filt, s.dev.slots, s.dev.qHead, s.dev.qLen, true),
          { s.out with raised := s.out.raised ++ [.queueOverflow] })
      else
        (((s.dev.filterUpdate s.cfg).filt,
          s.dev.slots.set s.dev.qHead ⟨s.dev.pData, s.dev.pBits, byteCount s.dev.pBits⟩,
          (s.dev.qHead + 1) % s.cfg.queueCap, s.dev.qLen + 1, s.dev.overflow), s.out) := by
  obtain ⟨f, hf⟩ := s.dev.filterUpdate_frame s.cfg
  rw [State.fileFrame_of_new hnew, State.enqueue_filed, hf]
  rfl

/-- Filing a frame shows nothing on `h_rdata`. -/
theorem State.fileFrame_out (s : State) : s.fileFrame.out = { s.out with raised := s.fileFrame.out.raised } := by
  rcases hskips : s.dev.filterSkips s.cfg
  · rw [State.fileFrame_of_new hskips]
    rcases (s.withDev (s.dev.filterUpdate s.cfg)).enqueue_cases s.dev.pData s.dev.pBits with ⟨-, heq⟩ | ⟨-, heq⟩ <;>
      rw [heq] <;> rfl
  · rw [State.fileFrame_of_skips hskips]

/-- A redundant frame leaves the filter memory and the FIFO as they are (40_sampler.md R160). -/
theorem State.eof_filed_of_redundant {s : State} (hwf : s.cfg.wf = true) (hsynced : s.dev.synced = true)
    (hlong : s.cfg.minFrameBits ≤ s.dev.pBits) (h : s.dev.Redundant s.cfg) : s.eof.dev.filed = s.dev.filed := by
  rw [State.eof_filed hsynced hlong, State.fileFrame_of_skips ((s.dev.filterSkips_iff hwf).mpr h)]

/-- Settles O23: what is filed and what the snapshot shows, each by its own cases; `State.eof_frame` gives the rest. -/
theorem wholeFrameIsFilteredQueuedAndSnapshotted : Obligations.WholeFrameIsFilteredQueuedAndSnapshotted := by
  intro s hwf _ hsynced hlong v cmd redundant
  have hredundant : v.filterSkips s.cfg = true ↔ redundant := v.filterSkips_iff hwf
  have hfiled := State.eof_filed hsynced hlong
  have hout := State.eof_out hsynced hlong
  have hsnap := State.eof_snapshot hsynced hlong
  have hmark : s.eof.out = { s.out with raised := s.eof.out.raised } := by
    rw [hout]
    exact s.fileFrame_out
  refine ⟨s.eof, rfl, ?_, fun hred => ?_, fun hnew => ?_, fun htaken => ?_, fun hnone => ?_⟩
  · refine State.ext_fields s.eof_cfg ?_ s.eof_inputs hmark
    obtain ⟨_, _, _, _, _, _, _, _, _, heof⟩ := s.eof_frame
    rw [heof, ← hsynced]
    rfl
  · have hfiled := State.eof_filed_of_redundant hwf hsynced hlong hred
    rw [State.fileFrame_of_skips (hredundant.mpr hred)] at hout
    simp only [Device.filed, Prod.mk.injEq] at hfiled
    obtain ⟨hfilt, hslots, hhead, hlen, hoverflow⟩ := hfiled
    exact ⟨hfilt, hslots, hhead, hlen, hoverflow, congrArg Output.raised hout⟩
  · have hskips : v.filterSkips s.cfg = false := eq_false_of_ne_true fun h => hnew (hredundant.mp h)
    have hfilt := State.eof_filt hsynced hlong
    have hboth := State.fileFrame_filed_of_new hskips
    rw [← hfiled, ← hout] at hboth
    refine ⟨fun k hk => ?_, fun hnot => ?_, fun hfull => ?_, fun hroom => ?_⟩
    · rw [hfilt, Device.filterUpdate_of_new ((filterIndex_eq_some_iff hwf).mpr hk) hskips]
    · rw [hfilt, Device.filterUpdate_of_notMem hnot]
    · rw [if_pos hfull] at hboth
      simp only [Device.filed, Prod.mk.injEq] at hboth
      obtain ⟨⟨-, hslots, hhead, hlen, hoverflow⟩, hout⟩ := hboth
      exact ⟨hslots, hhead, hlen, hoverflow, congrArg Output.raised hout⟩
    · rw [if_neg hroom] at hboth
      simp only [Device.filed, Prod.mk.injEq] at hboth
      obtain ⟨⟨-, hslots, hhead, hlen, hoverflow⟩, hout⟩ := hboth
      exact ⟨hslots, hhead, hlen, hoverflow, congrArg Output.raised hout⟩
  · rw [if_pos htaken] at hsnap
    simp only [Device.snapshot, Prod.mk.injEq] at hsnap
    exact hsnap
  · rw [if_neg hnone] at hsnap
    simp only [Device.snapshot, Prod.mk.injEq] at hsnap
    exact hsnap

/-- The block with another frame of panel bits assembled. -/
def State.reassemble (s : State) (data : List Byte) (n : Nat) : State :=
  s.withDev { s.dev with pData := data, pBits := n }

theorem State.eof_synced (s : State) : s.eof.dev.synced = true := by
  obtain ⟨_, _, _, _, _, _, _, _, _, heof⟩ := s.eof_frame
  rw [heof]
  rfl

theorem State.eof_qTail (s : State) : s.eof.dev.qTail = s.dev.qTail := by
  obtain ⟨_, _, _, _, _, _, _, _, _, heof⟩ := s.eof_frame
  rw [heof]
  rfl

/-- Settles O24: the first boundary leaves the frame remembered, so the second finds it redundant. -/
theorem repeatedPeriodicFrameIsFiltered : Obligations.RepeatedPeriodicFrameIsFiltered := by
  intro s n hwf hshape hsynced hlong hlong' hperiodic
  obtain ⟨k, hk⟩ := List.getElem?_of_mem hperiodic
  have hlt : k < s.dev.filt.length := by
    obtain ⟨hlt, -⟩ := List.getElem?_eq_some_iff.mp hk
    rwa [hshape.filtLength, Config.nFilt]
  have hremembered : s.eof.dev.filt[k]? = some ⟨true, s.dev.pData⟩ := by
    rw [State.eof_filt hsynced hlong]
    exact Device.filterUpdate_remembers ((filterIndex_eq_some_iff hwf).mpr hk) hlt
  have hcfg : (s.eof.reassemble s.dev.pData n).cfg = s.cfg := s.eof_cfg
  have hredundant : (s.eof.reassemble s.dev.pData n).dev.Redundant s.cfg := ⟨k, hk, hremembered⟩
  have hfiled := State.eof_filed_of_redundant (s := s.eof.reassemble s.dev.pData n) (hcfg ▸ hwf) s.eof_synced
    (hcfg ▸ hlong') (hcfg ▸ hredundant)
  simp only [Device.filed, Prod.mk.injEq] at hfiled
  obtain ⟨hfilt, hslots, hhead, hlen, hoverflow⟩ := hfiled
  exact ⟨s.eof, _, rfl, rfl, hslots, hhead, State.eof_qTail _, hlen, hoverflow, hfilt⟩

end Sys2Proof.Machine
end

section
/-! The holding ticks, by the events that fall due in them, and runs of them after an edge (40_sampler.md R145 to R149;
70_reset_and_hazards.md R298). -/

namespace Sys2Proof.Machine

/-! ### One holding tick (40_sampler.md R145 to R149) -/

theorem Device.sampleDue_iff {c : Config} {v : Device} :
    v.sampleDue c = true ↔ v.sampArmed = true ∧ v.sampCnt + 1 = c.tSample := by
  simp [Device.sampleDue]

theorem Device.sampleTimer_of_due {c : Config} {v : Device} (h : v.sampArmed = true ∧ v.sampCnt + 1 = c.tSample) :
    v.sampleTimer c = { v with sampCnt := v.sampCnt + 1, sampArmed := false } := by
  simp [Device.sampleTimer, h]

theorem Device.sampleTimer_of_not_due {c : Config} {v : Device}
    (h : ¬ (v.sampArmed = true ∧ v.sampCnt + 1 = c.tSample)) :
    v.sampleTimer c = { v with sampCnt := if v.sampArmed then v.sampCnt + 1 else v.sampCnt } := by
  unfold Device.sampleTimer
  split_ifs with harm
  · have hne : v.sampCnt + 1 ≠ c.tSample := fun hcnt => h ⟨harm, hcnt⟩
    simp [hne, harm]
  · rfl

theorem Device.holdSampleM_eq (c : Config) (v : Device) (l : Bool) :
    v.holdSampleM c l =
      if v.sampArmed = true ∧ v.sampCnt + 1 = c.tSample then
        Device.sampleM c { v with sampCnt := v.sampCnt + 1, sampArmed := false } l
      else { v with sampCnt := if v.sampArmed then v.sampCnt + 1 else v.sampCnt } := by
  simp only [Device.holdSampleM, Device.sampleDue_iff]
  by_cases hdue : v.sampArmed = true ∧ v.sampCnt + 1 = c.tSample
  · rw [if_pos hdue, if_pos hdue, Device.sampleTimer_of_due hdue]
  · rw [if_neg hdue, if_neg hdue, Device.sampleTimer_of_not_due hdue]

theorem Device.holdSampleP_eq (c : Config) (v : Device) (l : Bool) :
    v.holdSampleP c l =
      if v.sampArmed = true ∧ v.sampCnt + 1 = c.tSample then
        Device.sampleP c { v with sampCnt := v.sampCnt + 1, sampArmed := false } l
      else { v with sampCnt := if v.sampArmed then v.sampCnt + 1 else v.sampCnt } := by
  simp only [Device.holdSampleP, Device.sampleDue_iff]
  by_cases hdue : v.sampArmed = true ∧ v.sampCnt + 1 = c.tSample
  · rw [if_pos hdue, if_pos hdue, Device.sampleTimer_of_due hdue]
  · rw [if_neg hdue, if_neg hdue, Device.sampleTimer_of_not_due hdue]

theorem State.highTimer_eq (s : State) :
    s.highTimer =
      if s.dev.highCnt = s.cfg.tEof then (s.withDev { s.dev with highCnt := s.dev.highCnt + 1 }).eof
      else s.withDev
        { s.dev with highCnt := if s.dev.highCnt < s.cfg.tEof then s.dev.highCnt + 1 else s.dev.highCnt } := by
  rcases s.highTimer_cases with ⟨hgt, heq⟩ | ⟨hlt, heq⟩ | ⟨hdue, heq⟩ <;> rw [heq]
  · rw [if_neg (Nat.ne_of_gt hgt), if_neg (Nat.lt_asymm hgt)]
    rfl
  · rw [if_neg (Nat.ne_of_lt hlt), if_pos hlt]
  · rw [if_pos hdue]

theorem State.idleTimer_eq (s : State) :
    s.idleTimer =
      if s.dev.idleCnt = s.cfg.tDisc then (s.withDev { s.dev with idleCnt := s.dev.idleCnt + 1 }).disc
      else s.withDev
        { s.dev with idleCnt := if s.dev.idleCnt < s.cfg.tDisc then s.dev.idleCnt + 1 else s.dev.idleCnt } := by
  rcases s.idleTimer_cases with ⟨hgt, heq⟩ | ⟨hlt, heq⟩ | ⟨hdue, heq⟩ <;> rw [heq]
  · rw [if_neg (Nat.ne_of_gt hgt), if_neg (Nat.lt_asymm hgt)]
    rfl
  · rw [if_neg (Nat.ne_of_lt hlt), if_pos hlt]
  · rw [if_pos hdue]

/-- Settles O16: the sample timer, then the idle timer. -/
theorem holdLowTickFiresItsEvents : Obligations.HoldLowTickFiresItsEvents := by
  intro d s
  refine ⟨s.withDev (s.dev.holdSampleM s.cfg (s.dev.line d)), s.tickHoldLow (s.dev.line d), ?_, ?_, rfl⟩
  · rw [Device.holdSampleM_eq]
    split_ifs <;> rfl
  · rw [State.tickHoldLow, State.idleTimer_eq]
    split_ifs <;> rfl

/-- Settles O17: the sample timer, then the high timer, then the idle timer. -/
theorem holdHighTickFiresItsEvents : Obligations.HoldHighTickFiresItsEvents := by
  intro d s
  refine ⟨s.withDev (s.dev.holdSampleP s.cfg (s.dev.line d)),
    (s.withDev (s.dev.holdSampleP s.cfg (s.dev.line d))).highTimer, s.tickHoldHigh (s.dev.line d), ?_, ?_, ?_, rfl⟩
  · rw [Device.holdSampleP_eq]
    split_ifs <;> rfl
  · rw [State.highTimer_eq]
    split_ifs <;> rfl
  · rw [State.tickHoldHigh, State.idleTimer_eq]
    split_ifs <;> rfl

/-- Settles O58: a running sample timer agrees with the idle timer and is below `T_SAMPLE`; in a high half the high
timer agrees with it up to `T_EOF`; and `T_SAMPLE` ≤ `T_EOF` < `T_DISC`. -/
theorem noTwoTimersFireTogether : Obligations.NoTwoTimersFireTogether := by
  intro c v hwf h sample boundary silence
  obtain ⟨-, hse, hed, -⟩ := Config.wf_bounds hwf
  have hsample (hs : sample) : v.idleCnt < c.tSample := by
    obtain ⟨hlt, heq, -⟩ := h.timers.samp hs.1
    omega
  have hboundary (hb : boundary) : v.idleCnt = c.tEof :=
    (h.timers.highIdle hb.1 (Nat.le_of_eq hb.2)).trans hb.2
  refine ⟨fun ⟨hs, hb⟩ => ?_, fun ⟨hs, (hi : v.idleCnt = c.tDisc)⟩ => ?_, fun ⟨hb, (hi : v.idleCnt = c.tDisc)⟩ => ?_⟩
  · have := hsample hs
    have := hboundary hb
    omega
  · have := hsample hs
    omega
  · have := hboundary hb
    omega

end Sys2Proof.Machine
end

section
/-! Runs of holding ticks after an edge, at either clock level: where the timers stand after n of them, and what they
leave alone while no event is due (40_sampler.md R146, R148, R149, R166; 70_reset_and_hazards.md R298). -/

namespace Sys2Proof.Machine

/-! ### Edges and holding ticks at either clock level -/

/-- The edge to clock level `c` (40_sampler.md R143, R144). -/
def Device.edge (v : Device) : Bool → Device
  | true => v.edgeRise
  | false => v.edgeFall

/-- The holding tick at clock level `c` (40_sampler.md R145, R147). -/
def State.hold (s : State) (l : Bool) : Bool → State
  | true => s.tickHoldHigh l
  | false => s.tickHoldLow l

@[simp] theorem State.hold_cfg (s : State) (l c : Bool) : (s.hold l c).cfg = s.cfg := by
  cases c <;> simp [State.hold]

@[simp] theorem State.hold_inputs (s : State) (l c : Bool) : (s.hold l c).inputs = s.inputs := by
  cases c <;> simp [State.hold]

/-- The timers in a holding tick at clock level `c`. -/
def Timers.hold (cfg : Config) (t : Timers) : Bool → Timers
  | true => ((t.sample cfg).high cfg).idle cfg
  | false => (t.sample cfg).idle cfg

theorem State.hold_timers (s : State) (l c : Bool) : (s.hold l c).dev.timers = s.dev.timers.hold s.cfg c := by
  cases c
  · exact s.tickHoldLow_timers l
  · exact s.tickHoldHigh_timers l

theorem State.hold_clkQ (s : State) (l c : Bool) : (s.hold l c).dev.clkQ = s.dev.clkQ := by
  have htimers := congrArg Timers.clkQ (s.hold_timers l c)
  cases c <;> exact htimers

/-- A tick at the other clock level is the edge to it (30_encoding.md R110). -/
theorem exec_decodeTick_edge {s : State} {c : Bool} (d : Bool) (hseen : s.dev.clkSeen = true) (hq : s.dev.clkQ = !c) :
    exec (decodeTick (s.dev.tickPattern c) d) s = .next ((s.withDev (s.dev.edge c)).latchClock c) := by
  rw [Device.tickPattern, decodeTick_ofBool, hseen, hq]
  cases c <;> rfl

/-- A tick at the clock level that holds is the holding tick (30_encoding.md R110). -/
theorem exec_decodeTick_hold {s : State} {c : Bool} (d : Bool) (hseen : s.dev.clkSeen = true) (hq : s.dev.clkQ = c) :
    exec (decodeTick (s.dev.tickPattern c) d) s = .next (s.hold (s.dev.line d) c) := by
  have hlatch : (s.hold (s.dev.line d) c).latchClock c = s.hold (s.dev.line d) c := by
    rw [State.latchClock, Device.latchClock_of_clkQ ((s.hold_clkQ _ c).trans hq), State.withDev_self]
  rw [← hlatch, Device.tickPattern, decodeTick_ofBool, hseen, hq]
  cases c <;> rfl

theorem State.runInputs_edge {s : State} {c : Bool} (d : Bool) (rest : List Input) (hwf : s.cfg.wf = true)
    (hseen : s.dev.clkSeen = true) (hq : s.dev.clkQ = !c) :
    s.runInputs (.tick c d :: rest) = (((s.begin rest).withDev (s.dev.edge c)).latchClock c).runInputs rest :=
  State.runInputs_cons hwf rfl (exec_decodeTick_edge (s := s.begin rest) d hseen hq)

theorem State.runInputs_hold {s : State} {c : Bool} (d : Bool) (rest : List Input) (hwf : s.cfg.wf = true)
    (hseen : s.dev.clkSeen = true) (hq : s.dev.clkQ = c) :
    s.runInputs (.tick c d :: rest) = ((s.begin rest).hold (s.dev.line d) c).runInputs rest :=
  State.runInputs_cons hwf rfl (exec_decodeTick_hold (s := s.begin rest) d hseen hq)

/-- A run of nothing but one holding tick. -/
theorem State.runInputs_hold_last {s : State} {c : Bool} (d : Bool) (hwf : s.cfg.wf = true)
    (hseen : s.dev.clkSeen = true) (hq : s.dev.clkQ = c) :
    s.runInputs [.tick c d] = .next ((s.begin []).hold (s.dev.line d) c) := by
  have hempty : ((s.begin []).hold (s.dev.line d) c).inputs = [] := by simp
  rw [State.runInputs_hold d [] hwf hseen hq, State.runInputs_nil]
  exact congrArg _ (State.ext_fields rfl rfl hempty.symm rfl)

/-! ### The timers, n holding ticks after an edge (40_sampler.md R146, R148, R149) -/

/-- Where the timers stand: each has counted n ticks since the edge and rests at its end; the high timer, started by a
rising edge alone, keeps the count `h` in a low half. -/
def Timers.afterEdge (cfg : Config) (c : Bool) (h n : Nat) : Timers :=
  ⟨true, c, decide (n < cfg.tSample), min n cfg.tSample, if c then min n (cfg.tEof + 1) else h, min n (cfg.tDisc + 1)⟩

/-- A timer that counts up to m and one past it counts n ticks. -/
theorem count_succ_min (n m : Nat) :
    (if min n (m + 1) ≤ m then min n (m + 1) + 1 else min n (m + 1)) = min (n + 1) (m + 1) := by
  split_ifs <;> omega

theorem Timers.sample_afterEdge (cfg : Config) (c : Bool) (h n : Nat) :
    (Timers.afterEdge cfg c h n).sample cfg =
      { Timers.afterEdge cfg c h n with
        sampArmed := decide (n + 1 < cfg.tSample), sampCnt := min (n + 1) cfg.tSample } := by
  have hcnt : (if n < cfg.tSample then min n cfg.tSample + 1 else min n cfg.tSample) = min (n + 1) cfg.tSample := by
    split_ifs <;> omega
  have harmed : (decide (n < cfg.tSample) && decide (min n cfg.tSample + 1 ≠ cfg.tSample)) =
      decide (n + 1 < cfg.tSample) := by
    rw [← Bool.decide_and, decide_eq_decide]
    omega
  simp only [Timers.sample, Timers.afterEdge, Timers.mk.injEq, decide_eq_true_eq, true_and, and_true]
  exact ⟨harmed, hcnt⟩

theorem Timers.hold_afterEdge (cfg : Config) (c : Bool) (h n : Nat) :
    (Timers.afterEdge cfg c h n).hold cfg c = Timers.afterEdge cfg c h (n + 1) := by
  cases c <;> simp only [Timers.hold, Timers.sample_afterEdge]
  · simp only [Timers.idle, Timers.afterEdge, Bool.false_eq_true, if_false, count_succ_min]
  · simp only [Timers.idle, Timers.high, Timers.afterEdge, if_true, count_succ_min]

theorem Device.edge_timers {cfg : Config} {v : Device} (hwf : cfg.wf = true) (hseen : v.clkSeen = true) (c : Bool) :
    ((v.edge c).latchClock c).timers = Timers.afterEdge cfg c v.highCnt 0 := by
  obtain ⟨hsample, -⟩ := Config.wf_bounds hwf
  have harmed : decide (0 < cfg.tSample) = true := decide_eq_true hsample
  cases c
  · simp [Device.latchClock_timers, Device.edge, Device.edgeFall_timers, Timers.afterEdge, hseen, harmed]
  · simp [Device.latchClock_timers, Device.edge, Device.edgeRise_timers, Timers.afterEdge, hseen, harmed]

/-! ### Runs of holding ticks -/

/-- Where the timers of `v` stand, read off one by one. -/
theorem Device.of_timers_afterEdge {cfg : Config} {v : Device} {c : Bool} {h n : Nat}
    (ht : v.timers = Timers.afterEdge cfg c h n) :
    v.clkSeen = true ∧ v.clkQ = c ∧ (v.sampArmed = true ↔ n < cfg.tSample) ∧ v.sampCnt = min n cfg.tSample ∧
      (c = true → v.highCnt = min n (cfg.tEof + 1)) ∧ v.idleCnt = min n (cfg.tDisc + 1) := by
  simp only [Device.timers, Timers.afterEdge, Timers.mk.injEq] at ht
  obtain ⟨hseen, hq, harmed, hcnt, hhigh, hidle⟩ := ht
  refine ⟨hseen, hq, by rw [harmed, decide_eq_true_eq], hcnt, fun hc => ?_, hidle⟩
  rw [hhigh, if_pos hc]

/-- The induction over holding ticks: what each of them keeps, from the m-th after the edge on, they keep together, and
the timers stand as many ticks further. `rest` is what comes after them. -/
theorem State.runInputs_holds {I : Device → Prop} {cfg : Config} {c : Bool} {h : Nat} (hwf : cfg.wf = true)
    (rest : List Input) (ds : List Bool) (m : Nat) (s : State) (hcfg : s.cfg = cfg)
    (ht : s.dev.timers = Timers.afterEdge cfg c h m) (hI : I s.dev)
    (hkeep : ∀ (u : State) (n : Nat) (l : Bool), u.cfg = cfg → m ≤ n → n < m + ds.length →
      u.dev.timers = Timers.afterEdge cfg c h n → I u.dev → I (u.hold l c).dev) :
    ∃ t : State, s.runInputs (ds.map (.tick c) ++ rest) = t.runInputs rest ∧ t.cfg = cfg ∧
      t.dev.timers = Timers.afterEdge cfg c h (m + ds.length) ∧ I t.dev := by
  induction ds generalizing m s with
  | nil => exact ⟨s, rfl, hcfg, ht, hI⟩
  | cons d ds ih =>
    obtain ⟨hseen, hq, -⟩ := Device.of_timers_afterEdge ht
    have hlen : m + 1 + ds.length = m + (d :: ds).length := by
      rw [List.length_cons]
      omega
    have ht' := State.hold_timers (s.begin (ds.map (.tick c) ++ rest)) (s.dev.line d) c
    rw [State.begin_dev, State.begin_cfg, ht, hcfg, Timers.hold_afterEdge] at ht'
    have hI' := hkeep (s.begin (ds.map (.tick c) ++ rest)) m (s.dev.line d) hcfg (Nat.le_refl m) (by omega) ht hI
    rw [List.map_cons, List.cons_append, State.runInputs_hold d _ (hcfg ▸ hwf) hseen hq, ← hlen]
    exact ih (m + 1) _ ((State.hold_cfg _ _ c).trans hcfg) ht' hI' fun w n l hw hm hn =>
      hkeep w n l hw (by omega) (hlen ▸ hn)

/-- The run that an edge begins: what the edge establishes and each of the holding ticks after it keeps. -/
theorem State.runInputs_edge_holds {I : Device → Prop} {s : State} {c : Bool} (hwf : s.cfg.wf = true)
    (hseen : s.dev.clkSeen = true) (hq : s.dev.clkQ = !c) (d0 : Bool) (ds : List Bool) (rest : List Input)
    (hI : I ((s.dev.edge c).latchClock c))
    (hkeep : ∀ (u : State) (n : Nat) (l : Bool), u.cfg = s.cfg → n < ds.length →
      u.dev.timers = Timers.afterEdge s.cfg c s.dev.highCnt n → I u.dev → I (u.hold l c).dev) :
    ∃ t : State, s.runInputs (.tick c d0 :: (ds.map (.tick c) ++ rest)) = t.runInputs rest ∧ t.cfg = s.cfg ∧
      t.dev.timers = Timers.afterEdge s.cfg c s.dev.highCnt ds.length ∧ I t.dev := by
  rw [State.runInputs_edge d0 _ hwf hseen hq]
  have hrun := State.runInputs_holds (I := I) (c := c) (h := s.dev.highCnt) hwf rest ds 0
    (((s.begin (ds.map (.tick c) ++ rest)).withDev (s.dev.edge c)).latchClock c) rfl (Device.edge_timers hwf hseen c) hI
    fun u n l hcfg _ hn => hkeep u n l hcfg (by omega)
  rwa [Nat.zero_add] at hrun

/-- The same run with nothing after it. -/
theorem State.runInputs_edge_holds_end {I : Device → Prop} {s : State} {c : Bool} (hwf : s.cfg.wf = true)
    (hseen : s.dev.clkSeen = true) (hq : s.dev.clkQ = !c) (d0 : Bool) (ds : List Bool)
    (hI : I ((s.dev.edge c).latchClock c))
    (hkeep : ∀ (u : State) (n : Nat) (l : Bool), u.cfg = s.cfg → n < ds.length →
      u.dev.timers = Timers.afterEdge s.cfg c s.dev.highCnt n → I u.dev → I (u.hold l c).dev) :
    ∃ t : State, s.runInputs (.tick c d0 :: ds.map (.tick c)) = .next t ∧ t.cfg = s.cfg ∧
      t.dev.timers = Timers.afterEdge s.cfg c s.dev.highCnt ds.length ∧ I t.dev := by
  obtain ⟨t, hrun, hkept⟩ := State.runInputs_edge_holds hwf hseen hq d0 ds [] hI hkeep
  rw [List.append_nil, State.runInputs_nil] at hrun
  exact ⟨_, hrun, hkept⟩

/-! ### What an edge and a quiet tick leave alone -/

/-- The block with everything blanked that an edge writes: the streams and all that is delivered are left. -/
def Device.captured (v : Device) : Device :=
  { v with
    clkSeen := false, clkQ := false, sampArmed := false, sampCnt := 0, highCnt := 0, idleCnt := 0, connected := false
    connChanged := false, wrPending := false, wrSecond := false, wrActive := false, wrLast := false, driveLow := false }

/-- An edge is EdgeCommon; beside it, it writes the high timer and the writer's progress, and a rising one releases the
line (40_sampler.md R142 to R144). -/
theorem Device.edge_frame (v : Device) (c : Bool) :
    ∃ h p q a l d, (c = true → d = false) ∧ v.edge c =
      { v.edgeCommon with highCnt := h, wrPending := p, wrSecond := q, wrActive := a, wrLast := l, driveLow := d } := by
  cases c
  · obtain ⟨a, l, d, heq⟩ := v.edgeCommon.writerEvaluate_frame
    exact ⟨_, _, _, a, l, d, nofun, heq⟩
  · rcases v.edgeRise_cases with ⟨-, heq⟩ | ⟨-, heq⟩ <;> rw [Device.edge, heq]
    · exact ⟨_, _, _, _, _, false, fun _ => rfl, rfl⟩
    · rcases v.edgeCommon.risingRelease.writeComplete_cases with ⟨-, -, hwc⟩ | ⟨-, hwc⟩ <;> rw [hwc] <;>
        exact ⟨_, _, _, _, _, false, fun _ => rfl, rfl⟩

theorem Device.edge_captured (v : Device) (c : Bool) : ((v.edge c).latchClock c).captured = v.captured := by
  obtain ⟨_, _, _, _, _, _, -, heq⟩ := v.edge_frame c
  rw [heq]
  rfl

theorem Device.edge_connected (v : Device) (c : Bool) : (v.edge c).connected = true := by
  obtain ⟨_, _, _, _, _, _, -, heq⟩ := v.edge_frame c
  rw [heq]
  rfl

theorem Device.edge_true_driveLow (v : Device) : (v.edge true).driveLow = false := by
  obtain ⟨_, _, _, _, _, d, hd, heq⟩ := v.edge_frame true
  rw [heq]
  exact hd rfl

/-- The block with its timers blanked. -/
def Device.untimed (v : Device) : Device := { v with sampArmed := false, sampCnt := 0, highCnt := 0, idleCnt := 0 }

theorem State.highTimer_untimed {s : State} (h : s.dev.highCnt ≠ s.cfg.tEof) :
    s.highTimer.dev.untimed = s.dev.untimed := by
  rw [State.highTimer_eq, if_neg h]
  rfl

theorem State.idleTimer_untimed {s : State} (h : s.dev.idleCnt ≠ s.cfg.tDisc) :
    s.idleTimer.dev.untimed = s.dev.untimed := by
  rw [State.idleTimer_eq, if_neg h]
  rfl

/-- The sample timer with its event at clock level `c` (40_sampler.md R145, R147). -/
def Device.holdSample (cfg : Config) (v : Device) (l : Bool) : Bool → Device
  | true => v.holdSampleP cfg l
  | false => v.holdSampleM cfg l

/-- A holding tick up to its idle timer. -/
def State.beforeIdle (s : State) (l : Bool) : Bool → State
  | true => (s.withDev (s.dev.holdSample s.cfg l true)).highTimer
  | false => s.withDev (s.dev.holdSample s.cfg l false)

theorem State.hold_eq_idleTimer (s : State) (l c : Bool) : s.hold l c = (s.beforeIdle l c).idleTimer := by
  cases c <;> rfl

theorem State.beforeIdle_cfg (s : State) (l c : Bool) : (s.beforeIdle l c).cfg = s.cfg := by
  cases c
  · rfl
  · exact State.highTimer_cfg _

theorem Device.holdSample_timers (cfg : Config) (v : Device) (l c : Bool) :
    (v.holdSample cfg l c).timers = v.timers.sample cfg := by
  cases c
  · exact v.holdSampleM_timers cfg l
  · exact v.holdSampleP_timers cfg l

theorem State.beforeIdle_idleCnt (s : State) (l c : Bool) : (s.beforeIdle l c).dev.idleCnt = s.dev.idleCnt := by
  have hsample : (s.dev.holdSample s.cfg l c).idleCnt = s.dev.idleCnt :=
    congrArg Timers.idleCnt (s.dev.holdSample_timers s.cfg l c)
  cases c
  · exact hsample
  · exact (congrArg Timers.idleCnt (State.highTimer_timers _)).trans hsample

/-- With no boundary and no silence due, a holding tick is its sample and the counting (40_sampler.md R145, R147). -/
theorem State.hold_untimed {s : State} {c : Bool} (l : Bool) (heof : c = true → s.dev.highCnt ≠ s.cfg.tEof)
    (hdisc : s.dev.idleCnt ≠ s.cfg.tDisc) :
    (s.hold l c).dev.untimed = (s.dev.holdSample s.cfg l c).untimed := by
  have hidle : (s.beforeIdle l c).dev.idleCnt ≠ (s.beforeIdle l c).cfg.tDisc := by
    rwa [State.beforeIdle_idleCnt, State.beforeIdle_cfg]
  rw [State.hold_eq_idleTimer, State.idleTimer_untimed hidle]
  cases c
  · rfl
  · have hcnt : (s.dev.holdSample s.cfg l true).highCnt = s.dev.highCnt :=
      congrArg Timers.highCnt (s.dev.holdSample_timers s.cfg l true)
    exact State.highTimer_untimed (s := s.withDev (s.dev.holdSample s.cfg l true)) (hcnt.trans_ne (heof rfl))

theorem Device.holdSample_untimed {cfg : Config} {v : Device} (l c : Bool)
    (h : ¬ (v.sampArmed = true ∧ v.sampCnt + 1 = cfg.tSample)) : (v.holdSample cfg l c).untimed = v.untimed := by
  cases c
  · rw [Device.holdSample, Device.holdSampleM_eq, if_neg h]
    rfl
  · rw [Device.holdSample, Device.holdSampleP_eq, if_neg h]
    rfl

/-! ### The sample, `T_SAMPLE` ticks after the edge (40_sampler.md R146, R166) -/

/-- Before the sample of a half falls due, a holding tick only counts. -/
theorem State.hold_untimed_of_early {s : State} {c : Bool} {h n : Nat} (l : Bool) (hwf : s.cfg.wf = true)
    (ht : s.dev.timers = Timers.afterEdge s.cfg c h n) (hn : n + 1 < s.cfg.tSample) :
    (s.hold l c).dev.untimed = s.dev.untimed := by
  obtain ⟨-, hse, hed, -⟩ := Config.wf_bounds hwf
  obtain ⟨-, -, -, hcnt, hhigh, hidle⟩ := Device.of_timers_afterEdge ht
  rw [State.hold_untimed l (fun hc => by rw [hhigh hc]; omega) (by rw [hidle]; omega)]
  exact Device.holdSample_untimed l c fun hdue => by omega

/-- In a half no longer than `T_SAMPLE` ticks the block is, timers apart, as the edge left it. -/
theorem State.runInputs_short_half {s : State} {c : Bool} (hwf : s.cfg.wf = true) (hseen : s.dev.clkSeen = true)
    (hq : s.dev.clkQ = !c) (d0 : Bool) (ds : List Bool) (rest : List Input) (hlen : ds.length + 1 ≤ s.cfg.tSample) :
    ∃ t : State, s.runInputs (.tick c d0 :: (ds.map (.tick c) ++ rest)) = t.runInputs rest ∧ t.cfg = s.cfg ∧
      t.dev.timers = Timers.afterEdge s.cfg c s.dev.highCnt ds.length ∧
      t.dev.untimed = ((s.dev.edge c).latchClock c).untimed :=
  State.runInputs_edge_holds (I := fun v => v.untimed = ((s.dev.edge c).latchClock c).untimed) hwf hseen hq d0 ds rest
    rfl fun u n l hcfg hn ht hI => by
      rw [← hcfg] at ht
      rw [State.hold_untimed_of_early l (hcfg ▸ hwf) ht (by rw [hcfg]; omega), hI]

/-- Settles O52: up to the second edge only the timers move, and the second edge restarts them. -/
theorem shortHalfLosesItsSample : Obligations.ShortHalfLosesItsSample := by
  intro s c d0 d1 ds hwf hseen hq hlen
  obtain ⟨t, hrun, hcfg, ht, hsame⟩ := State.runInputs_short_half hwf hseen hq d0 ds [.tick (!c) d1] hlen
  obtain ⟨hseen', hq', -⟩ := Device.of_timers_afterEdge ht
  have hwf' : t.cfg.wf = true := hcfg ▸ hwf
  have hcaptured : ((t.dev.edge !c).latchClock !c).captured = s.dev.captured :=
    calc ((t.dev.edge !c).latchClock !c).captured = t.dev.captured := t.dev.edge_captured _
      _ = ((s.dev.edge c).latchClock c).captured := (congrArg Device.captured hsame :)
      _ = s.dev.captured := s.dev.edge_captured c
  obtain ⟨-, -, harmed, hcnt, -⟩ := Device.of_timers_afterEdge (Device.edge_timers hwf' hseen' !c)
  obtain ⟨hsample, -⟩ := Config.wf_bounds hwf'
  rw [State.runInputs_edge d1 [] hwf' hseen' (by rw [hq', Bool.not_not]), State.runInputs_nil] at hrun
  exact ⟨_, hrun, (congrArg Device.pBits hcaptured :), (congrArg Device.pData hcaptured :),
    (congrArg Device.mBits hcaptured :), (congrArg Device.mData hcaptured :), harmed.mpr hsample,
    hcnt.trans (Nat.zero_min _)⟩

/-- The panel stream after SAMPLE_P (40_sampler.md R150, R152). -/
theorem Device.sampleP_stream (c : Config) (v : Device) (l : Bool) :
    (v.synced = true ∧ v.pBits < c.maxBits →
      (v.sampleP c l).pBits = v.pBits + 1 ∧ (v.sampleP c l).pData = appendBit v.pData v.pBits l) ∧
    (¬ (v.synced = true ∧ v.pBits < c.maxBits) →
      (v.sampleP c l).pBits = v.pBits ∧ (v.sampleP c l).pData = v.pData) := by
  rcases v.sampleP_cases c l with ⟨hs, hroom, heq⟩ | ⟨hnone, heq⟩ <;> rw [heq]
  · exact ⟨fun _ => ⟨rfl, rfl⟩, fun hnot => absurd ⟨hs, hroom⟩ hnot⟩
  · refine ⟨fun ⟨hs, hroom⟩ => ?_, fun _ => ⟨rfl, rfl⟩⟩
    rcases hnone with hns | hfull
    · exact absurd hs (ne_true_of_eq_false hns)
    · exact absurd hroom (Nat.not_lt.mpr hfull)

/-- The holding tick in which the sample of a high half falls due. -/
theorem State.hold_untimed_of_sample {s : State} {h : Nat} (l : Bool) (hwf : s.cfg.wf = true)
    (ht : s.dev.timers = Timers.afterEdge s.cfg true h (s.cfg.tSample - 1)) :
    (s.hold l true).dev.untimed =
      (Device.sampleP s.cfg { s.dev with sampCnt := s.dev.sampCnt + 1, sampArmed := false } l).untimed := by
  obtain ⟨hsample, hse, hed, -⟩ := Config.wf_bounds hwf
  obtain ⟨-, -, harmed, hcnt, hhigh, hidle⟩ := Device.of_timers_afterEdge ht
  have hdue : s.dev.sampArmed = true ∧ s.dev.sampCnt + 1 = s.cfg.tSample :=
    ⟨harmed.mpr (by omega), by omega⟩
  rw [State.hold_untimed l (fun hc => by rw [hhigh hc]; omega) (by rw [hidle]; omega), Device.holdSample,
    Device.holdSampleP_eq, if_pos hdue]

/-- Settles O51: until tick `T_SAMPLE` only the timers move, and in it SAMPLE_P takes the level of the pad, which the
block does not pull in a high half. -/
theorem panelBitIsSampledAtTSample : Obligations.PanelBitIsSampledAtTSample := by
  intro s d0 last ds hwf hseen hq hlen
  obtain ⟨t, hrun, hcfg, ht, hsame⟩ := State.runInputs_short_half (c := true) hwf hseen hq d0 ds [] (Nat.le_of_eq hlen)
  rw [List.append_nil, State.runInputs_nil] at hrun
  obtain ⟨hseen', hq', -⟩ := Device.of_timers_afterEdge ht
  have hcaptured : t.dev.captured = s.dev.captured :=
    (congrArg Device.captured hsame :).trans (s.dev.edge_captured true)
  have hpBits : t.dev.pBits = s.dev.pBits := (congrArg Device.pBits hcaptured :)
  have hpData : t.dev.pData = s.dev.pData := (congrArg Device.pData hcaptured :)
  have hsynced : t.dev.synced = s.dev.synced := (congrArg Device.synced hcaptured :)
  have hline : t.dev.line last = last := by
    have hdrive : t.dev.driveLow = false := (congrArg Device.driveLow hsame :).trans s.dev.edge_true_driveLow
    rw [Device.line, hdrive, Bool.not_false, Bool.and_true]
  have hlast := State.runInputs_hold_last (s := t) last (hcfg ▸ hwf) hseen' hq'
  have hbit := State.hold_untimed_of_sample (s := t.begin []) last (hcfg ▸ hwf)
    (h := s.dev.highCnt) (by rw [State.begin_cfg, State.begin_dev, ht, hcfg, ← hlen, Nat.add_sub_cancel])
  have hstream := Device.sampleP_stream t.cfg { t.dev with sampCnt := t.dev.sampCnt + 1, sampArmed := false } last
  rw [hline] at hlast
  refine ⟨_, _, hrun, hpBits, hpData, hlast, ?_⟩
  have hbits := congrArg Device.pBits hbit
  have hdata := congrArg Device.pData hbit
  rw [show ((t.begin []).hold last true).dev.pBits = _ from hbits,
    show ((t.begin []).hold last true).dev.pData = _ from hdata, ← hpBits, ← hpData, ← hsynced, ← hcfg]
  exact hstream

/-! ### The boundary, `T_EOF` + 1 ticks after a rising edge (40_sampler.md R148) -/

/-- The block with the streams blanked as well: what a frame is delivered to, and its gate. -/
def Device.delivered (v : Device) : Device :=
  { v.captured with pData := [], pBits := 0, mData := [], mBits := 0, mDetect := false }

theorem Device.sampleP_delivered (c : Config) (v : Device) (l : Bool) : (v.sampleP c l).delivered = v.delivered := by
  rcases v.sampleP_cases c l with ⟨-, -, heq⟩ | ⟨-, heq⟩ <;> rw [heq]
  rfl

theorem Device.holdSampleP_delivered (c : Config) (v : Device) (l : Bool) :
    (v.holdSampleP c l).delivered = v.delivered := by
  rw [Device.holdSampleP_eq]
  split_ifs
  · exact Device.sampleP_delivered c _ l
  all_goals rfl

/-- With the boundary due the sample timer rests, and the idle timer counts on after EOF. -/
theorem State.hold_of_boundary {s : State} {h : Nat} (l : Bool) (hwf : s.cfg.wf = true)
    (ht : s.dev.timers = Timers.afterEdge s.cfg true h s.cfg.tEof) :
    s.hold l true =
      (s.withDev { s.dev with highCnt := s.cfg.tEof + 1 }).eof.withDev
        { (s.withDev { s.dev with highCnt := s.cfg.tEof + 1 }).eof.dev with idleCnt := s.cfg.tEof + 1 } := by
  obtain ⟨-, hse, hed, -⟩ := Config.wf_bounds hwf
  obtain ⟨-, -, harmed, -, hhigh, hidle⟩ := Device.of_timers_afterEdge ht
  have hrest : s.dev.holdSampleP s.cfg l = s.dev := by
    rcases s.dev.holdSampleP_cases s.cfg l with ⟨-, heq⟩ | ⟨harm, -⟩ | ⟨harm, -⟩
    · exact heq
    · exact absurd (harmed.mp harm) (Nat.not_lt.mpr hse)
    · exact absurd (harmed.mp harm) (Nat.not_lt.mpr hse)
  have hhigh : s.dev.highCnt = s.cfg.tEof := (hhigh rfl).trans (by omega)
  have hidle : (s.withDev { s.dev with highCnt := s.cfg.tEof + 1 }).eof.dev.idleCnt = s.cfg.tEof :=
    (congrArg Timers.idleCnt (State.eof_timers _)).trans (hidle.trans (by omega))
  rw [State.hold, State.tickHoldHigh, hrest, State.withDev_self, State.highTimer_eq, if_pos hhigh, hhigh,
    State.idleTimer_eq, State.eof_cfg, State.withDev_cfg, hidle, if_neg (Nat.ne_of_lt hed), if_pos hed]

/-- Settles O53: in the `T_EOF` ticks after the edge no boundary and no silence falls due. -/
theorem boundaryFiresAfterTEof : Obligations.BoundaryFiresAfterTEof := by
  intro s d0 d ds hwf hseen hq hlen
  obtain ⟨-, -, hed, -⟩ := Config.wf_bounds hwf
  have hedge : ((s.dev.edge true).latchClock true).delivered = s.dev.delivered := by
    rw [Device.delivered, Device.edge_captured]
    rfl
  have hkeep (u : State) (n : Nat) (l : Bool) (hcfg : u.cfg = s.cfg) (hn : n < ds.length)
      (ht : u.dev.timers = Timers.afterEdge s.cfg true s.dev.highCnt n) (hI : u.dev.delivered = s.dev.delivered) :
      (u.hold l true).dev.delivered = s.dev.delivered := by
    obtain ⟨-, -, -, -, hhigh, hidle⟩ := Device.of_timers_afterEdge ht
    have hquiet := State.hold_untimed (c := true) l (fun hc => by rw [hhigh hc, hcfg]; omega)
      (by rw [hidle, hcfg]; omega)
    calc (u.hold l true).dev.delivered = (u.dev.holdSampleP u.cfg l).delivered :=
          (congrArg Device.delivered hquiet :)
      _ = u.dev.delivered := u.dev.holdSampleP_delivered u.cfg l
      _ = s.dev.delivered := hI
  obtain ⟨t, hrun, hcfg, ht, hsame⟩ := State.runInputs_edge_holds_end (I := fun v => v.delivered = s.dev.delivered)
    (c := true) hwf hseen hq d0 ds hedge hkeep
  rw [hlen] at ht
  obtain ⟨hseen', hq', -, -, hhigh, -⟩ := Device.of_timers_afterEdge ht
  have hlast := State.runInputs_hold_last d (hcfg ▸ hwf) hseen' hq'
  have htimers : (t.begin []).dev.timers =
      Timers.afterEdge (t.begin []).cfg true s.dev.highCnt (t.begin []).cfg.tEof := by
    rw [State.begin_cfg, hcfg]
    exact ht
  rw [State.hold_of_boundary _ (hcfg ▸ hwf) htimers] at hlast
  refine ⟨t, _, hrun, (hhigh rfl).trans (by omega), (congrArg Device.synced hsame :), (congrArg Device.slots hsame :),
    (congrArg Device.qLen hsame :), (congrArg Device.overflow hsame :), (congrArg Device.filt hsame :),
    (congrArg Device.msValid hsame :), rfl, ?_⟩
  rw [hlast, ← hcfg]
  rfl

/-! ### The silence, `T_DISC` + 1 ticks after an edge (40_sampler.md R149, R164) -/

/-- The connection and its sticky flag (10_state.md R36). -/
def Device.connection (v : Device) : Bool × Bool := (v.connected, v.connChanged)

theorem Device.holdSample_connection (cfg : Config) (v : Device) (l c : Bool) :
    (v.holdSample cfg l c).connection = v.connection := by
  cases c
  · rw [Device.holdSample, Device.holdSampleM_eq]
    split_ifs
    · rcases Device.sampleM_cases cfg { v with sampCnt := v.sampCnt + 1, sampArmed := false } l with
        ⟨-, -, -, heq⟩ | ⟨-, -, -, heq⟩ | ⟨-, heq⟩ <;> rw [heq] <;> rfl
    all_goals rfl
  · rw [Device.holdSample, Device.holdSampleP_eq]
    split_ifs
    · rcases Device.sampleP_cases cfg { v with sampCnt := v.sampCnt + 1, sampArmed := false } l with
        ⟨-, -, heq⟩ | ⟨-, heq⟩ <;> rw [heq] <;> rfl
    all_goals rfl

theorem State.eof_connection (s : State) : s.eof.dev.connection = s.dev.connection := by
  obtain ⟨_, _, _, _, _, _, _, _, _, heq⟩ := s.eof_frame
  rw [heq]
  rfl

theorem State.highTimer_connection (s : State) : s.highTimer.dev.connection = s.dev.connection := by
  rw [State.highTimer_eq]
  split_ifs
  · exact State.eof_connection _
  all_goals rfl

/-- Samples and boundaries do not touch the connection. -/
theorem State.beforeIdle_connection (s : State) (l c : Bool) :
    (s.beforeIdle l c).dev.connection = s.dev.connection := by
  cases c
  · exact s.dev.holdSample_connection s.cfg l false
  · exact (State.highTimer_connection _).trans (s.dev.holdSample_connection s.cfg l true)

/-- With no silence due a holding tick leaves the connection as it is. -/
theorem State.hold_connection {s : State} (l c : Bool) (hdisc : s.dev.idleCnt ≠ s.cfg.tDisc) :
    (s.hold l c).dev.connection = s.dev.connection := by
  have hidle : (s.beforeIdle l c).dev.idleCnt ≠ (s.beforeIdle l c).cfg.tDisc := by
    rwa [State.beforeIdle_idleCnt, State.beforeIdle_cfg]
  rw [State.hold_eq_idleTimer]
  exact (congrArg Device.connection (State.idleTimer_untimed hidle) :).trans (s.beforeIdle_connection l c)

theorem State.disc_lost (s : State) :
    s.disc.dev.connection = (false, s.dev.connChanged || s.dev.connected) ∧ s.disc.dev.wrPending = false ∧
      s.disc.dev.driveLow = false := by
  rcases s.disc_dev_cases with ⟨-, heq⟩ | ⟨-, heq⟩ <;> rw [heq] <;> exact ⟨rfl, rfl, rfl⟩

/-- With the silence due a holding tick fires DISC. -/
theorem State.hold_of_silence {s : State} (l c : Bool) (hdisc : s.dev.idleCnt = s.cfg.tDisc) :
    (s.hold l c).dev.connection = (false, s.dev.connChanged || s.dev.connected) ∧
      (s.hold l c).dev.wrPending = false ∧ (s.hold l c).dev.driveLow = false := by
  have hidle : (s.beforeIdle l c).dev.idleCnt = (s.beforeIdle l c).cfg.tDisc := by
    rwa [State.beforeIdle_idleCnt, State.beforeIdle_cfg]
  have hconn := s.beforeIdle_connection l c
  simp only [Device.connection, Prod.mk.injEq] at hconn
  rw [State.hold_eq_idleTimer, State.idleTimer_eq, if_pos hidle, ← hconn.1, ← hconn.2]
  exact State.disc_lost _

/-- Past the silence the idle timer rests, so the connection stays lost and unmarked (60_exceptions.md R264). -/
theorem State.runInputs_after_silence {s : State} {cfg : Config} {c : Bool} {h : Nat} (hwf : cfg.wf = true)
    (es : List Bool) (hcfg : s.cfg = cfg) (ht : s.dev.timers = Timers.afterEdge cfg c h (cfg.tDisc + 1))
    (hlost : s.dev.connection = (false, false)) :
    ∃ w : State, s.runInputs (es.map (.tick c)) = .next w ∧ w.dev.connection = (false, false) ∧
      w.dev.idleCnt = cfg.tDisc + 1 := by
  have hkeep (u : State) (n : Nat) (l : Bool) (hcfg : u.cfg = cfg) (hm : cfg.tDisc + 1 ≤ n)
      (ht : u.dev.timers = Timers.afterEdge cfg c h n) (hI : u.dev.connection = (false, false)) :
      (u.hold l c).dev.connection = (false, false) := by
    obtain ⟨-, -, -, -, -, hidle⟩ := Device.of_timers_afterEdge ht
    rw [State.hold_connection l c (by rw [hidle, hcfg]; omega), hI]
  obtain ⟨w, hrun, -, htw, hIw⟩ := State.runInputs_holds (I := fun v => v.connection = (false, false)) hwf [] es
    (cfg.tDisc + 1) s hcfg ht hlost fun u n l hcfg hm _ => hkeep u n l hcfg hm
  obtain ⟨-, -, -, -, -, hidle⟩ := Device.of_timers_afterEdge htw
  rw [List.append_nil, State.runInputs_nil] at hrun
  exact ⟨_, hrun, hIw, hidle.trans (by omega)⟩

/-- Settles O54: the idle timer reaches `T_DISC` in the last of the ticks, and is past it from the next on. -/
theorem disconnectFiresOnceAfterTDisc : Obligations.DisconnectFiresOnceAfterTDisc := by
  intro s c d0 d ds es hwf hseen hq hlen
  have hkeep (u : State) (n : Nat) (l : Bool) (hcfg : u.cfg = s.cfg) (hn : n < ds.length)
      (ht : u.dev.timers = Timers.afterEdge s.cfg c s.dev.highCnt n) (hI : u.dev.connected = true) :
      (u.hold l c).dev.connected = true := by
    obtain ⟨-, -, -, -, -, hidle⟩ := Device.of_timers_afterEdge ht
    exact (congrArg Prod.fst (State.hold_connection l c (by rw [hidle, hcfg]; omega))).trans hI
  obtain ⟨t, hrun, hcfg, ht, hconn⟩ := State.runInputs_edge_holds_end (I := fun v => v.connected = true)
    hwf hseen hq d0 ds (s.dev.edge_connected c) hkeep
  rw [hlen] at ht
  obtain ⟨hseen', hq', -, -, -, hidle⟩ := Device.of_timers_afterEdge ht
  have hidle : t.dev.idleCnt = s.cfg.tDisc := hidle.trans (by omega)
  have hlast := State.runInputs_hold_last d (hcfg ▸ hwf) hseen' hq'
  obtain ⟨hlost, hpending, hdrive⟩ := State.hold_of_silence (s := t.begin []) (t.dev.line d) c
    (hidle.trans (congrArg Config.tDisc hcfg.symm))
  simp only [Device.connection, State.begin_dev, hconn, Bool.or_true, Prod.mk.injEq] at hlost
  obtain ⟨hdown, hchanged⟩ := hlost
  have htimers : ((t.begin []).hold (t.dev.line d) c).dev.timers =
      Timers.afterEdge s.cfg c s.dev.highCnt (s.cfg.tDisc + 1) := by
    rw [State.hold_timers, State.begin_dev, State.begin_cfg, ht, hcfg, Timers.hold_afterEdge]
  obtain ⟨-, -, -, -, -, hidleu⟩ := Device.of_timers_afterEdge htimers
  obtain ⟨w, hrunw, hlostw, hidlew⟩ := State.runInputs_after_silence
    (s := { (t.begin []).hold (t.dev.line d) c with
      dev := { ((t.begin []).hold (t.dev.line d) c).dev with connChanged := false } })
    hwf es ((State.hold_cfg _ _ c).trans hcfg) htimers (by rw [Device.connection, hdown])
  simp only [Device.connection, Prod.mk.injEq] at hlostw
  exact ⟨t, _, w, hrun, hconn, hidle, hlast, hdown, hchanged, hpending, hdrive, hrunw, hlostw.1, hlostw.2,
    hidleu.trans (by omega), hidlew⟩

end Sys2Proof.Machine
end

section
/-! ENQUEUE, POP, FILTCLR and the checksum as operations of their own (41_fifo_checksum.md R182 to R188). -/

namespace Sys2Proof.Machine

/-! ### The FIFO (41_fifo_checksum.md R182, R184) -/

/-- Slot i after ENQUEUE with room: the new frame in slot `q_head`, every other slot as it was. -/
theorem Device.pushFrame_getElem? {c : Config} {v : Device} (hhead : v.qHead < v.slots.length) (data : List Byte)
    (n i : Nat) :
    (v.pushFrame c data n).slots[i]? =
      if i = v.qHead then some ⟨data, n, byteCount n⟩ else v.slots[i]? := by
  show (v.slots.set v.qHead ⟨data, n, byteCount n⟩)[i]? = _
  split_ifs with hi
  · rw [hi, List.getElem?_set_self hhead]
  · exact List.getElem?_set_ne (Ne.symm hi)

/-- Settles O26: ENQUEUE by its two cases, and slot by slot when there is room. -/
theorem enqueueStoresOrFlagsOverflow : Obligations.EnqueueStoresOrFlagsOverflow := by
  intro s hhead
  refine ⟨_, rfl, ?_⟩
  rcases s.enqueue_cases s.dev.pData s.dev.pBits with ⟨hfull, heq⟩ | ⟨hroom, heq⟩ <;> rw [heq]
  · exact ⟨fun _ => rfl, fun hroom => absurd hfull hroom⟩
  · have hslot := Device.pushFrame_getElem? (c := s.cfg) hhead s.dev.pData s.dev.pBits
    refine ⟨fun hfull => absurd hfull hroom, fun _ => ⟨rfl, List.length_set, ?_, fun i hi => ?_⟩⟩
    · exact (hslot s.dev.qHead).trans (if_pos rfl)
    · exact (hslot i).trans (if_neg hi)

/-- Settles O27: POP by its two cases. -/
theorem popRemovesTheFront : Obligations.PopRemovesTheFront := by
  intro s
  show Host.Outcome.next (s.withDev (s.dev.pop s.cfg)) = _
  rcases s.dev.pop_cases s.cfg with ⟨hempty, heq⟩ | ⟨hlen, heq⟩ <;> rw [heq]
  · rw [if_pos hempty, State.withDev_self]
  · rw [if_neg hlen.ne']
    rfl

/-! ### The filter memory (41_fifo_checksum.md R186) -/

/-- Settles O31: FILTCLR clears the valid bit slot by slot. -/
theorem filtclrInvalidatesEverySlot : Obligations.FiltclrInvalidatesEverySlot := by
  intro s
  refine ⟨_, rfl, rfl, List.length_map _, fun k e hk => ?_⟩
  show (s.dev.filt.map fun e => { e with valid := false })[k]? = _
  rw [List.getElem?_map, hk, Option.map_some]

/-! ### The checksum (41_fifo_checksum.md R188) -/

/-- "equivalently an 8-bit accumulator that wraps": what it holds is the unbounded sum mod 256. -/
theorem toNat_foldl_add (l : List Byte) (a : Byte) :
    (l.foldl (· + ·) a).toNat = (a.toNat + (l.map BitVec.toNat).sum) % 256 := by
  induction l generalizing a with
  | nil => exact (Nat.mod_eq_of_lt a.isLt).symm
  | cons x xs ih =>
    rw [List.foldl_cons, ih, BitVec.toNat_add, Nat.mod_add_mod, List.map_cons, List.sum_cons, Nat.add_assoc]

theorem checksum_toNat (data : List Byte) (t : Nat) :
    (checksum data t).toNat = ((byteAt data 0).toNat + (((data.take t).drop 2).map BitVec.toNat).sum) % 256 :=
  toNat_foldl_add _ _

/-- The verdict as the accumulator gives it. -/
theorem ckOk_iff (data : List Byte) (count : Nat) :
    ckOk data count = true ↔ 3 ≤ count ∧ checksum data (count - 1) = byteAt data (count - 1) := by
  unfold ckOk
  split_ifs with hshort
  · exact ⟨nofun, fun ⟨hlong, _⟩ => absurd hshort (Nat.not_lt.mpr hlong)⟩
  · rw [decide_eq_true_eq]
    exact (and_iff_right (Nat.not_lt.mp hshort)).symm

/-- Settles O30: the wrapping accumulator and the trailer are compared as numbers. -/
theorem checksumIsTheByteSumModulo256 : Obligations.ChecksumIsTheByteSumModulo256 := by
  intro bytes count
  rw [ckOk_iff, ← checksum_toNat, BitVec.toNat_inj]

end Sys2Proof.Machine
end

section
/-! WRITE_KEY: the five conditions of a request and what an accepted one loads (42_writer.md R201 to R204). -/

namespace Sys2Proof.Machine

/-- `KEYMAP` at a code is the pattern and the alarm flag of the code's key (44_keys.md R300). -/
theorem keymap_eq_some_iff {c : Config} {code pattern : Byte} {alarm : Bool} :
    keymap c code = some (pattern, alarm) ↔
      ∃ k, keyOfCode code = some k ∧ keyPattern c.keyPatterns k = pattern ∧ keyIsAlarm k = alarm := by
  simp only [keymap, Option.map_eq_some_iff, Prod.mk.injEq]

theorem keymap_eq_none_iff {c : Config} {code : Byte} : keymap c code = none ↔ keyOfCode code = none :=
  Option.map_eq_none_iff

theorem slotOf_of_getElem? {c : Config} {p : Nat} {e : KeySlot} (h : c.slots[p - 1]? = some e) : slotOf c p = e := by
  rw [slotOf, List.getD_eq_getElem?_getD, h, Option.getD_some]

/-- The load of a key of either kind as one update (42_writer.md R202, R204). -/
theorem Device.loadKey_eq (c : Config) (v : Device) (k : Key) :
    v.loadKey c k =
      { v with
        wrPattern := keyPattern c.keyPatterns k, wrAlarm := keyIsAlarm k, wrAny := keyIsAlarm k
        wrStart := if keyIsAlarm k then c.alarmStart else (slotOf c v.wpart.toNat).start
        wrCmd := if keyIsAlarm k then 0x00#8 else (slotOf c v.wpart.toNat).cmd
        wrSecond := false, wrActive := false, wrLast := false, wrPending := true } := by
  rcases v.loadKey_cases c k with ⟨hkind, heq⟩ | ⟨hkind, heq⟩ <;> rw [heq, hkind] <;> rfl

theorem State.requestKey_of_accepts {s : State} (h : s.dev.acceptsKey s.cfg = true) (k : Key) :
    s.requestKey k = s.withDev (s.dev.loadKey s.cfg k) := if_pos h

theorem State.requestKey_of_not_accepts {s : State} (h : ¬ s.dev.acceptsKey s.cfg = true) (k : Key) :
    s.requestKey k = s.rejectKey := if_neg h

theorem State.writeKey_of_key {s : State} {k : Key} (h : keyOfCode s.dev.wkey = some k) :
    s.writeKey = s.requestKey k := by
  simp only [State.writeKey, h]

/-- Settles O44: the character names a key of `KEYMAP`, and the key is accepted and loaded. -/
theorem acceptedRequestIsLoaded : Obligations.AcceptedRequestIsLoaded := by
  intro s pattern alarm e hv hconn hp hkeymap hlo hhi hslot
  obtain ⟨k, hkey, rfl, rfl⟩ := keymap_eq_some_iff.mp hkeymap
  have hacc : s.dev.acceptsKey s.cfg = true := (Device.acceptsKey_iff _ _).mpr ⟨hv, hconn, hp, hlo, hhi⟩
  show Host.Outcome.next s.writeKey = _
  rw [State.writeKey_of_key hkey, State.requestKey_of_accepts hacc, Device.loadKey_eq, slotOf_of_getElem? hslot]
  rfl

/-- Settles O45: a code that is no key is rejected outright, and a key when any of the other four conditions fails. -/
theorem requestIsRejectedUnlessAllFiveHold : Obligations.RequestIsRejectedUnlessAllFiveHold := by
  intro s hfail
  show Host.Outcome.next s.writeKey = .next s.rejectKey
  rcases s.writeKey_cases with ⟨k, hkey, heq⟩ | ⟨-, heq⟩ <;> rw [heq]
  rw [State.requestKey_of_not_accepts]
  intro hacc
  obtain ⟨hv, hconn, hp, hlo, hhi⟩ := (Device.acceptsKey_iff _ _).mp hacc
  rcases hfail with hf | hf | hf | hf | hf | hf
  · exact absurd hv (ne_true_of_eq_false hf)
  · exact absurd hconn (ne_true_of_eq_false hf)
  · exact absurd hf (ne_true_of_eq_false hp)
  · exact absurd hkey (by rw [keymap_eq_none_iff.mp hf]; nofun)
  · exact absurd hlo (Nat.not_le.mpr hf)
  · exact absurd hhi (Nat.not_le.mpr hf)

end Sys2Proof.Machine
end

section
/-! The writer on the wire: the pattern bit that a falling edge presents is what the module sample of that low half
reads back (42_writer.md R206, R214; 10_state.md R58). -/

namespace Sys2Proof.Machine

/-- A falling edge of a live request at bit k of its window, open already or opening here, presents pattern bit 7 − k
(42_writer.md R205, R206). -/
theorem Device.edgeFall_of_window {v : Device} {k : Nat} (hp : v.wrPending = true) (hv : v.vkpEn = true)
    (hs : v.synced = true) (hk : k ≤ 7) (hb : v.pBits = v.wrStart + k)
    (hwin : v.wrActive = true ∨ (k = 0 ∧ v.frameMatch = true)) :
    v.edgeFall = Device.presentBit { v.edgeCommon with wrActive := true } k := by
  rcases ha : v.wrActive with _ | _
  · obtain ⟨rfl, hm⟩ := hwin.resolve_left (ne_true_of_eq_false ha)
    exact Device.writerEvaluate_of_opens (v := v.edgeCommon) hp hv hs ha hb hm
  · have hlo : v.wrStart ≤ v.pBits := by omega
    have hhi : v.pBits ≤ v.wrStart + 7 := by omega
    have hidx : v.edgeCommon.pBits - v.edgeCommon.wrStart = k := Nat.sub_eq_of_eq_add' hb
    have hopen : { v.edgeCommon with wrActive := true } = v.edgeCommon := by
      rw [← (ha : v.edgeCommon.wrActive = true)]
      rfl
    rw [Device.edgeFall, Device.writerEvaluate_of_active (v := v.edgeCommon) hp hv hs ha hlo hhi, hidx, hopen]

/-- SAMPLE_M of a synchronised block with the module stream enabled and room in it (40_sampler.md R154). -/
theorem Device.sampleM_of_room {c : Config} {v : Device} (l : Bool) (hs : v.synced = true) (hm : v.modEn = true)
    (hroom : v.mBits < c.maxBits) :
    v.sampleM c l =
      { v with mData := appendBit v.mData v.mBits l, mBits := v.mBits + 1, mDetect := v.mDetect || !l } := by
  simp [Device.sampleM, Device.moduleBit, hs, hm, hroom]

/-- The holding tick in which the sample of a low half falls due: SAMPLE_M, and no silence yet (40_sampler.md R145). -/
theorem State.hold_untimed_of_moduleSample {s : State} {h : Nat} (l : Bool) (hwf : s.cfg.wf = true)
    (ht : s.dev.timers = Timers.afterEdge s.cfg false h (s.cfg.tSample - 1)) :
    (s.hold l false).dev.untimed =
      (Device.sampleM s.cfg { s.dev with sampCnt := s.dev.sampCnt + 1, sampArmed := false } l).untimed := by
  obtain ⟨hsample, hse, hed, -⟩ := Config.wf_bounds hwf
  obtain ⟨-, -, harmed, hcnt, -, hidle⟩ := Device.of_timers_afterEdge ht
  have hdue : s.dev.sampArmed = true ∧ s.dev.sampCnt + 1 = s.cfg.tSample :=
    ⟨harmed.mpr (by omega), by omega⟩
  rw [State.hold_untimed (c := false) l nofun (by rw [hidle]; omega), Device.holdSample, Device.holdSampleM_eq,
    if_pos hdue]

/-- Settles O50: up to the sample tick only the timers move after the edge has presented the bit, and SAMPLE_M then
takes the level of the pad, which is the bus level unless the block pulls the line for a pattern bit of 0. -/
theorem windowBitIsReadBack : Obligations.WindowBitIsReadBack := by
  intro s k d0 m ds hwf hseen hq hs hmod hp hv hroom hk hb hwin hlen
  obtain ⟨t, hrun, hcfg, ht, hsame⟩ :=
    State.runInputs_short_half (c := false) hwf hseen hq d0 ds [.tick false m] (Nat.le_of_eq hlen)
  obtain ⟨hseen', hq', -⟩ := Device.of_timers_afterEdge ht
  rw [Device.edge, Device.edgeFall_of_window hp hv hs hk hb hwin] at hsame
  have hdrive : t.dev.driveLow = !s.dev.wrPattern.getLsbD (7 - k) := (congrArg Device.driveLow hsame :)
  have hactive : t.dev.wrActive = true := (congrArg Device.wrActive hsame :)
  have hsynced : t.dev.synced = true := (congrArg Device.synced hsame :).trans hs
  have hmodEn : t.dev.modEn = true := (congrArg Device.modEn hsame :).trans hmod
  have hmBits : t.dev.mBits = s.dev.mBits := (congrArg Device.mBits hsame :)
  have hmData : t.dev.mData = s.dev.mData := (congrArg Device.mData hsame :)
  have hline : t.dev.line m = (m && s.dev.wrPattern.getLsbD (7 - k)) := by
    rw [Device.line, hdrive, Bool.not_not]
  have hbit := State.hold_untimed_of_moduleSample (s := t.begin []) (t.dev.line m) (hcfg ▸ hwf)
    (h := s.dev.highCnt) (by rw [State.begin_cfg, State.begin_dev, ht, hcfg, ← hlen, Nat.add_sub_cancel])
  rw [State.begin_cfg, State.begin_dev,
    Device.sampleM_of_room (v := { t.dev with sampCnt := t.dev.sampCnt + 1, sampArmed := false }) _ hsynced hmodEn
      (by rw [hcfg]; exact hmBits.trans_lt hroom), hline, hmBits, hmData] at hbit
  rw [State.runInputs_hold_last m (hcfg ▸ hwf) hseen' hq', hline] at hrun
  exact ⟨_, hrun, (congrArg Device.driveLow hbit :).trans hdrive, (congrArg Device.wrActive hbit :).trans hactive,
    (congrArg Device.mBits hbit :), (congrArg Device.mData hbit :)⟩

end Sys2Proof.Machine
end

section
/-! The host's accesses one by one: what a read of each address shows, and what the writes of FLAGCLR, CTRL, WKEY, WPART
and CMD store (43_host_ops.md R220 to R229, R240, R241). -/

namespace Sys2Proof.Machine

/-! ### A read shows its address's value (43_host_ops.md R220) -/

theorem State.readRegister_frontData (s : State) (i : BitVec 4) :
    s.readRegister (0b01#2 ++ i) = s.dev.frontData s.cfg i.toNat := by
  have haddr : (0b01#2 ++ i).toNat = i.toNat + 0x10 := by decide +revert
  have hlt : i.toNat < 0x10 := i.isLt
  simp [State.readRegister, haddr, hlt]

theorem State.readRegister_msData (s : State) (i : BitVec 4) :
    s.readRegister (0b10#2 ++ i) = s.dev.snapshotData s.cfg i.toNat := by
  have haddr : (0b10#2 ++ i).toNat = i.toNat + 0x20 := by decide +revert
  have hlt : i.toNat < 0x10 := i.isLt
  simp [State.readRegister, haddr, hlt]

theorem State.readRegister_reserved0C0F (s : State) (lo : BitVec 2) : s.readRegister (0b0011#4 ++ lo) = 0x00#8 := by
  have haddr : (0b0011#4 ++ lo).toNat = lo.toNat + 0x0C := by decide +revert
  have hlt : lo.toNat < 4 := lo.isLt
  have hlow : ¬ 0x10 ≤ lo.toNat + 0x0C := by omega
  have hhigh : ¬ 0x20 ≤ lo.toNat + 0x0C := by omega
  simp only [State.readRegister, haddr, hlow, hhigh, false_and, if_false]

theorem State.readRegister_reserved303F (s : State) (lo : BitVec 4) : s.readRegister (0b11#2 ++ lo) = 0x00#8 := by
  have haddr : (0b11#2 ++ lo).toNat = lo.toNat + 0x30 := by decide +revert
  simp [State.readRegister, haddr]

/-- The row of a read answers the value of its address, register by register and window by window. -/
theorem exec_hostRead (s : State) (addr : BitVec 6) (w : Byte) :
    exec (decodeHost (hostSelect false addr) w) s = .next (s.answer (s.readRegister addr)) := by
  rcases hostAddr_cases addr with ⟨n, hn, rfl⟩ | ⟨lo, rfl⟩ | ⟨i, rfl⟩ | ⟨i, rfl⟩ | ⟨lo, rfl⟩
  · interval_cases n <;> rfl
  · rw [decodeHost_reserved0C0F, s.readRegister_reserved0C0F]
    rfl
  · rw [decodeHost_frontData, s.readRegister_frontData]
    rfl
  · rw [decodeHost_msData, s.readRegister_msData]
    rfl
  · rw [decodeHost_reserved303F, s.readRegister_reserved303F]
    rfl

/-- Settles O35: the step runs the row the read selects, on a state whose outputs are gone. -/
theorem everyReadIsFreeOfSideEffects : Obligations.EveryReadIsFreeOfSideEffects := by
  intro s addr w rest hwf hin
  rw [step_of_selects hwf hin rfl, exec_hostRead]
  rfl

/-! ### STATUS, CTRL and the plain reads (43_host_ops.md R222, R224, R226) -/

/-- Bit n of a byte put together from its bits, taken off from bit 0 up: the byte is its bits appended one by one. -/
theorem getLsbD_byteOfBits (b7 b6 b5 b4 b3 b2 b1 b0 : Bool) (n : Nat) :
    (byteOfBits b7 b6 b5 b4 b3 b2 b1 b0).getLsbD n = [b0, b1, b2, b3, b4, b5, b6, b7].getD n false := by
  iterate 7
    rcases n with _ | n
    · exact BitVec.getLsbD_concat_zero
    refine BitVec.getLsbD_concat_succ.trans ?_
  rcases n with _ | n <;> simp

/-- The bits of STATUS, bit 0 first (10_state.md R43). -/
theorem Device.getLsbD_statusByte (v : Device) (n : Nat) :
    v.statusByte.getLsbD n =
      [decide (0 < v.qLen), v.overflow, v.connected, v.connChanged, !v.wrPending, v.frontCkOk, v.synced,
        v.msValid].getD n false :=
  getLsbD_byteOfBits _ _ _ _ _ _ _ _ n

/-- The bits of CTRL, bit 0 first; the six above are zeros (10_state.md R45). -/
theorem Device.getLsbD_ctrlByte (v : Device) (n : Nat) : v.ctrlByte.getLsbD n = [v.vkpEn, v.modEn].getD n false := by
  rw [Device.ctrlByte, getLsbD_byteOfBits]
  rcases n with _ | _ | n
  · rfl
  · rfl
  · show (List.replicate 6 false).getD n false = false
    rcases Nat.lt_or_ge n 6 with hlt | hge
    · exact List.getD_replicate _ hlt
    · exact List.getD_eq_default _ _ hge

theorem Device.frontCkOk_of_empty {v : Device} (h : v.qLen = 0) : v.frontCkOk = false := by
  rw [Device.frontCkOk, Device.front_of_empty h]

theorem Device.frontCkOk_of_getElem? {v : Device} {f : FrameSlot} (h : 0 < v.qLen)
    (hf : v.slots[v.qTail]? = some f) : v.frontCkOk = ckOk f.data f.bytes := by
  rw [Device.frontCkOk, Device.front_of_getElem? h hf]

/-- Settles O32: the answer is the status byte, whose bit 5 is the front frame's verdict. -/
theorem statusShowsItsEightBits : Obligations.StatusShowsItsEightBits := by
  intro s
  have hbit := s.dev.getLsbD_statusByte
  exact ⟨s.dev.statusByte, rfl, hbit 0, hbit 1, hbit 2, hbit 3, hbit 4,
    fun hempty => (hbit 5).trans (Device.frontCkOk_of_empty hempty),
    fun _ hlen hf => (hbit 5).trans (Device.frontCkOk_of_getElem? hlen hf), hbit 6, hbit 7⟩

/-- Settles O33: each row answers its element; only CTRL puts a byte together. -/
theorem plainReadsReturnTheirElements : Obligations.PlainReadsReturnTheirElements := by
  intro s i
  have hbit := s.dev.getLsbD_ctrlByte
  exact ⟨⟨s.dev.ctrlByte, rfl, hbit 0, hbit 1, fun j hj => (hbit j).trans (List.getD_eq_default _ _ hj)⟩,
    rfl, rfl, rfl, rfl, rfl, rfl, rfl, rfl, rfl⟩

/-! ### Writes (43_host_ops.md R223, R225, R228, R229) -/

/-- Settles O36: a flag under a set mask bit falls, any other stays. -/
theorem flagclrClearsExactlyTheMaskedFlags : Obligations.FlagclrClearsExactlyTheMaskedFlags := by
  intro m s
  have hclear : ∀ flag mask : Bool, (flag && !mask) = if mask then false else flag := by decide
  show Host.Outcome.next (s.withDev (s.dev.flagClear m)) = _
  rw [Device.flagClear, hclear, hclear, hclear]
  rfl

/-- Settles O37: CtrlWrite by its two cases, `vkp_en` falling or not. -/
theorem ctrlWriteSetsEnablesAndAbandons : Obligations.CtrlWriteSetsEnablesAndAbandons := by
  intro b s off
  show Host.Outcome.next (s.withDev (s.dev.ctrlWrite b)) = _
  rcases s.dev.ctrlWrite_cases b with ⟨hon, hclr, heq⟩ | ⟨hstay, heq⟩ <;> rw [heq]
  · have hoff : off := ⟨hon, hclr⟩
    simp only [if_pos hoff, hclr]
    rfl
  · have hoff : ¬ off := fun ⟨hon, hclr⟩ =>
      hstay.elim (ne_false_of_eq_true hon) (ne_true_of_eq_false hclr)
    simp only [if_neg hoff]
    rfl

/-- Settles O38: the rows store and show, and a step of a write to 0x07 or 0x08 runs its row. -/
theorem keyAndPartitionWritesOnlyStore : Obligations.KeyAndPartitionWritesOnlyStore := by
  intro b s
  refine ⟨rfl, rfl, rfl, rfl, fun rest hwf => ⟨fun hin => ?_, fun hin => ?_⟩⟩
  · exact step_of_selects (i := .hwWkey b) hwf hin rfl
  · exact step_of_selects (i := .hwWpart b) hwf hin rfl

/-! ### Commands without an effect (43_host_ops.md R240, R241) -/

/-- Settles O42: `Command(v)` does nothing for a code from 4 on. -/
theorem nopAndReservedCommandsAreInert : Obligations.NopAndReservedCommandsAreInert :=
  fun s code => ⟨rfl, rfl, fun hreserved => congrArg Host.Outcome.next (s.command_reserved code hreserved)⟩

end Sys2Proof.Machine
end

section
/-! The key alphabet: what the 25 key rows load, and the characters that are no key (44_keys.md R300, R330, R331). -/

namespace Sys2Proof.Machine

/-! ### The key rows by the kind of their key (44_keys.md R300) -/

/-- The keys whose alarm column is 0, in the order of 44_keys.md R300. -/
def slotKeys : List Key :=
  [.digit0, .digit1, .digit2, .digit3, .digit4, .digit5, .digit6, .digit7, .digit8, .digit9, .star, .hash,
   .stay, .away, .night, .chime, .reset, .exit, .out1, .out2, .out3, .out4]

theorem mem_slotKeys {k : Key} : k ∈ slotKeys ↔ keyIsAlarm k = false := by
  cases k <;> decide

/-- The keys whose alarm column is 1. -/
def alarmKeys : List Key := [.fire, .aux, .panic]

theorem mem_alarmKeys {k : Key} : k ∈ alarmKeys ↔ keyIsAlarm k = true := by
  cases k <;> decide

theorem slotKeyRows_eq_map (p : KeyPatterns) (lower : Bool) :
    slotKeyRows p lower = slotKeys.map fun k => (keyInstr k lower, keyPattern p k) := rfl

theorem alarmKeyRows_eq_map (p : KeyPatterns) (lower : Bool) :
    alarmKeyRows p lower = alarmKeys.map fun k => (keyInstr k lower, keyPattern p k) := rfl

/-- The slot-key rows are the rows of the keys that are no alarm, each with its key's pattern. -/
theorem mem_slotKeyRows {p : KeyPatterns} {lower : Bool} {r : Instr × Byte} :
    r ∈ slotKeyRows p lower ↔ ∃ k, keyIsAlarm k = false ∧ (keyInstr k lower, keyPattern p k) = r := by
  simp only [slotKeyRows_eq_map, List.mem_map, mem_slotKeys]

theorem mem_alarmKeyRows {p : KeyPatterns} {lower : Bool} {r : Instr × Byte} :
    r ∈ alarmKeyRows p lower ↔ ∃ k, keyIsAlarm k = true ∧ (keyInstr k lower, keyPattern p k) = r := by
  simp only [alarmKeyRows_eq_map, List.mem_map, mem_alarmKeys]

theorem exec_keyInstr_of_accepts {s : State} (h : s.dev.acceptsKey s.cfg = true) (k : Key) (lower : Bool) :
    exec (keyInstr k lower) s = .next (s.withDev (s.dev.loadKey s.cfg k)) := by
  rw [exec_keyInstr, State.requestKey_of_accepts h]

/-- Settles O46: a slot-key row is the row of a key that is no alarm, and its request is accepted and loaded. -/
theorem slotKeyRowsLoadTheirPattern : Obligations.SlotKeyRowsLoadTheirPattern := by
  intro s lower e hv hconn hp hlo hhi hslot r hr
  obtain ⟨k, hkind, rfl⟩ := mem_slotKeyRows.mp hr
  have hacc : s.dev.acceptsKey s.cfg = true := (Device.acceptsKey_iff _ _).mpr ⟨hv, hconn, hp, hlo, hhi⟩
  rw [exec_keyInstr_of_accepts hacc, Device.loadKey_eq, hkind, slotOf_of_getElem? hslot]
  rfl

/-- Settles O47: as for the slot keys, with no slot looked up. -/
theorem alarmKeyRowsLoadTheirPattern : Obligations.AlarmKeyRowsLoadTheirPattern := by
  intro s lower hv hconn hp hlo hhi r hr
  obtain ⟨k, hkind, rfl⟩ := mem_alarmKeyRows.mp hr
  have hacc : s.dev.acceptsKey s.cfg = true := (Device.acceptsKey_iff _ _).mpr ⟨hv, hconn, hp, hlo, hhi⟩
  rw [exec_keyInstr_of_accepts hacc, Device.loadKey_eq, hkind]
  rfl

/-! ### Characters that are no key (44_keys.md R330, R331) -/

theorem unknownKeyOk_iff {code : Byte} :
    Instr.unknownKeyOk code = true ↔ keyOfCode code = none ∧ code ≠ 0x2F#8 := by
  simp only [Instr.unknownKeyOk, Bool.and_eq_true, Option.isNone_iff_eq_none, decide_eq_true_eq]

theorem keymap_of_slash_or_unknown (c : Config) {code : Byte}
    (h : code = 0x2F#8 ∨ (Instr.keyUnknownRejected code).wf = true) : keymap c code = none := by
  refine keymap_eq_none_iff.mpr ?_
  rcases h with rfl | hunknown
  · rfl
  · exact (unknownKeyOk_iff.mp hunknown).1

/-- Settles O48: the two rows reject outright, and a code outside `KEYMAP` fails condition (d) of a request
(42_writer.md R201). -/
theorem slashAndUnknownCharactersAreRejected : Obligations.SlashAndUnknownCharactersAreRejected := by
  intro s code rejected
  refine ⟨rfl, rfl, fun c hcode => keymap_of_slash_or_unknown c hcode, fun hcode => ?_⟩
  have hnone : keymap s.cfg s.dev.wkey = none := keymap_of_slash_or_unknown s.cfg hcode
  exact requestIsRejectedUnlessAllFiveHold s (.inr (.inr (.inr (.inl hnone))))

/-! ### Letter case (44_keys.md R300) -/

/-- The lower case of a letter's code names the same key, or no key where the letter is none. -/
theorem keyOfCode_lowercase {upper : Byte} (hlo : 0x41 ≤ upper.toNat) (hhi : upper.toNat ≤ 0x5A) :
    keyOfCode (upper + 0x20#8) = keyOfCode upper := by
  obtain ⟨n, hn⟩ : ∃ n, upper.toNat = n := ⟨_, rfl⟩
  obtain rfl := eq_ofNat_of_toNat_eq hn
  rw [hn] at hlo hhi
  interval_cases n <;> rfl

/-- Settles O49: `KEYMAP` reads a code only through the key it names. -/
theorem letterCaseDoesNotMatter : Obligations.LetterCaseDoesNotMatter := by
  intro c upper hlo hhi
  rw [keymap, keymap, keyOfCode_lowercase hlo hhi]

end Sys2Proof.Machine
end

section
/-! A step with nothing pending (60_exceptions.md R275). -/

namespace Sys2Proof.Machine

/-- Settles O9: a valid configuration is not refused, so an empty queue, the stopped clock of log 4, is all that is left
to decide the step. -/
theorem noInputFreezesTheBlock : Obligations.NoInputFreezesTheBlock := by
  intro s hwf hin
  have haccepted : configRefusal s.cfg = none := configRefusal_of_wf hwf
  simp only [step, haccepted, hin]

end Sys2Proof.Machine
end

section
/-! Reset (70_reset_and_hazards.md R280) and what the host sees after it (R281). -/

namespace Sys2Proof.Machine

/-- No operation is selected by a period of `rst`, so its step does nothing but reset the block. -/
theorem step_of_rst {s : State} {rest : List Input} (hwf : s.cfg.wf = true) (hin : s.inputs = .rst :: rest) :
    step s = .next (s.begin rest).resetDevice := by
  have hselects : s.dev.selects .rst = none := rfl
  rw [step_cons hwf hin, hselects]

/-- Settles O11: the step of a reset period leaves `Device.reset`, whose elements are those of the table. -/
theorem resetGivesEveryElementItsResetValue : Obligations.ResetGivesEveryElementItsResetValue :=
  fun _ _ hwf hin => step_of_rst hwf hin

/-! ### The host's view after reset -/

/-- Of the eight status bits only WRITE_READY is set (10_state.md R43). -/
theorem Device.statusByte_reset (c : Config) : (Device.reset c).statusByte = 0x10#8 := by
  have hck : (Device.reset c).frontCkOk = false := Device.frontCkOk_of_empty rfl
  have hbyte : byteOfBits false false false true false false false false = 0x10#8 := by decide
  rw [Device.statusByte, hck]
  exact hbyte

/-- Both enables are off (10_state.md R45). -/
theorem Device.ctrlByte_reset (c : Config) : (Device.reset c).ctrlByte = 0x00#8 := by
  have hbyte : byteOfBits false false false false false false false false = 0x00#8 := by decide
  exact hbyte

/-- No frame is in the FIFO, so FRONT_DATA shows none (10_state.md R55). -/
theorem Device.frontData_reset (c : Config) (i : Nat) : (Device.reset c).frontData c i = 0x00#8 := by
  have hempty : (Device.reset c).qLen = 0 := rfl
  rw [Device.frontData, Device.front_of_empty hempty]

/-- The module snapshot is cleared, within `READ_SIZE` and past it (10_state.md R56). -/
theorem Device.snapshotData_reset (c : Config) (i : Nat) : (Device.reset c).snapshotData c i = 0x00#8 := by
  have hbyte : byteAt (Device.reset c).msData i = 0x00#8 := byteAt_zeroBytes c i
  rw [Device.snapshotData, hbyte, ite_self]

/-- The named registers after reset: all but STATUS and WPART show an element that is 0. -/
theorem State.readRegister_resetWith_of_named (c : Config) {n : Nat} (h : n < 0x0C) :
    (State.resetWith c).readRegister (BitVec.ofNat 6 n) =
      if n = 0x00 then 0x10#8 else if n = 0x08 then 0x01#8 else 0x00#8 := by
  interval_cases n
  · exact Device.statusByte_reset c
  · rfl
  · exact Device.ctrlByte_reset c
  all_goals rfl

/-- From 0x0C on, the two data windows show cleared bytes and the reserved addresses zeros (10_state.md R55, R56;
20_memory.md R84). -/
theorem State.readRegister_resetWith_of_window (c : Config) {addr : BitVec 6} (h : 0x0C ≤ addr.toNat) :
    (State.resetWith c).readRegister addr = 0x00#8 := by
  rcases hostAddr_cases addr with ⟨n, hn, rfl⟩ | ⟨lo, rfl⟩ | ⟨i, rfl⟩ | ⟨i, rfl⟩ | ⟨lo, rfl⟩
  · rw [BitVec.toNat_ofNat] at h
    omega
  · exact State.readRegister_reserved0C0F _ lo
  · exact (State.readRegister_frontData _ i).trans (Device.frontData_reset c i.toNat)
  · exact (State.readRegister_msData _ i).trans (Device.snapshotData_reset c i.toNat)
  · exact State.readRegister_reserved303F _ lo

/-- What each of the 64 addresses shows after reset (70_reset_and_hazards.md R281). -/
theorem State.readRegister_resetWith (c : Config) (addr : BitVec 6) :
    (State.resetWith c).readRegister addr =
      if addr = 0x00#6 then 0x10#8 else if addr = 0x08#6 then 0x01#8 else 0x00#8 := by
  simp only [← BitVec.toNat_inj, BitVec.toNat_ofNat, Nat.reducePow, Nat.reduceMod]
  rcases Nat.lt_or_ge addr.toNat 0x0C with hnamed | hwindow
  · rw [← State.readRegister_resetWith_of_named c hnamed, ← eq_ofNat_of_toNat_eq rfl]
  · rw [State.readRegister_resetWith_of_window c hwindow, if_neg (by omega), if_neg (by omega)]

/-- Settles O12: a read answers the value of its address in the register map. -/
theorem hostViewAfterReset : Obligations.HostViewAfterReset := by
  intro c addr w
  rw [exec_hostRead, State.readRegister_resetWith]
  rfl

end Sys2Proof.Machine
end
